-- ==== Sys2Proof/Word.lean ====
section
/-! DEFINITION. The plain words of the engine: widths of spec/00_scope.md rule R11 and the one signed reading of
rule R15. Everything that a test could show wrong about them stands in the files under Machine/. -/

namespace Sys2Proof

/-- A backing byte of a BitBuffer (spec/40_bitbuffer.md, rule R110). -/
abbrev Byte := BitVec 8

/-- A 32-bit word: the microsecond clock, a deadline, the edge counter, `error_code` and `wait_micros`
(`CLOCK_BITS`, `COUNTER_BITS`, `CODE_BITS` of rule R11). Addition and subtraction wrap modulo 2^32 (rule R15). -/
abbrev Word := BitVec 32

/-- An axis register of a record (`AXIS_BITS` = 16 of rule R11). -/
abbrev Axis := BitVec 16

/-- A brightness register of a record (`BRIGHT_BITS` = 8 of rule R11). -/
abbrev Bright := BitVec 8

/-- `sint32(v)` of rule R15: the 32-bit value read as two's complement. -/
def sint32 (v : Word) : Int := v.toInt

end Sys2Proof
end

