-- ==== Sys2Proof/Syntax.lean ====
section
/-! DEFINITION. The values the operations work on, the operations themselves (one constructor of `Instr` for each
row of spec/opcode_table.json), the calls of HOST that select them, and the events that move the machine.
Rules: spec/10_state.md R21 to R29, spec/30_encoding.md R102 to R104, spec/00_scope.md R13. -/

namespace Sys2Proof

/-! ## Record values -/

/-- `Direction`: a 4-bit mask over Right = 1, Down = 2, Left = 4, Up = 8 (rule R21). A register can hold all 16
values; nine of them are valid. -/
abbrev Direction := BitVec 4

/-- `Mode`, the three-position selector (rule R22). -/
inductive Mode where
  | undefined | mode1 | mode2 | mode3
deriving DecidableEq, Repr, Inhabited

/-- `LedColor`, the four-symbol palette (rule R23). Its wire code is the parameter `LED_CODE` of Config. -/
inductive LedColor where
  | amber | green | red | off
deriving DecidableEq, Repr, Inhabited

/-- The JoystickState record of both variants (rules R24, R25): the fields are the same, the documented range of
`x` and `y` differs. -/
structure JoystickState where
  x : Axis
  y : Axis
  z : Axis
  hat1 : Direction
  hat2 : Direction
  mode : Mode
  trigger1 : Bool
  fire : Bool
  a : Bool
  c : Bool
  trigger2 : Bool
  b : Bool
  pinkie : Bool
  t1 : Bool
  t2 : Bool
  t3 : Bool
  t4 : Bool
  t5 : Bool
  t6 : Bool
deriving DecidableEq, Repr, Inhabited

/-- The Pro JoystickConfig record (rule R26). -/
structure ProConfig where
  brightness : Bright
  pov1Blink : Bool
  fireLed : Bool
  buttonALed : LedColor
  pov2Led : LedColor
  buttonBLed : LedColor
  t1t2Led : LedColor
  t3t4Led : LedColor
  t5t6Led : LedColor
deriving DecidableEq, Repr, Inhabited

/-- The Std JoystickConfig record (rule R27). -/
structure StdConfig where
  brightness : Bright
  pov1Blink : Bool
deriving DecidableEq, Repr, Inhabited

/-- The default JoystickState of either variant (rule R28): the record whose encoding is all zero. -/
def JoystickState.defaults : JoystickState :=
  { x := 0, y := 0, z := 0, hat1 := 0, hat2 := 0, mode := .undefined, trigger1 := false, fire := false, a := false,
    c := false, trigger2 := false, b := false, pinkie := false, t1 := false, t2 := false, t3 := false, t4 := false,
    t5 := false, t6 := false }

/-- The default Pro JoystickConfig (rule R26). -/
def ProConfig.defaults : ProConfig :=
  { brightness := 31, pov1Blink := false, fireLed := true, buttonALed := .green, pov2Led := .green,
    buttonBLed := .green, t1t2Led := .green, t3t4Led := .green, t5t6Led := .green }

/-- The default Std JoystickConfig (rule R27). -/
def StdConfig.defaults : StdConfig := { brightness := 127, pov1Blink := false }

/-- A BitBuffer value `(N, b)` (spec/40_bitbuffer.md): its capacity in bits and its backing bytes in index order. -/
structure BitBuffer where
  N : Nat
  bytes : List Byte
deriving DecidableEq, Repr, Inhabited

/-! ## Pins and triggers -/

/-- The two input pins of an engine (rule R34). -/
inductive InPin where
  | ctlIn | dataIn
deriving DecidableEq, Repr, Inhabited

/-- The two output pins of an engine (rule R34). -/
inductive OutPin where
  | ctlOut | dataOut
deriving DecidableEq, Repr, Inhabited

/-- Any of the four pins, the operand of `pin_mode` (rule R51). -/
inductive Pin where
  | out (p : OutPin)
  | inp (p : InPin)
deriving DecidableEq, Repr, Inhabited

/-- The directions of `pin_mode` (rule R51). -/
inductive PinDir where
  | input | output
deriving DecidableEq, Repr, Inhabited

/-- The trigger action of `WaitForPulse` (spec/44_pulsewaiter.md, rule R172): the toggle of the request line, or
none ("optionally after triggering an action"). -/
inductive Trigger where
  | none | toggleReq
deriving DecidableEq, Repr, Inhabited

/-! ## The operations -/

/-- One constructor for each row of spec/opcode_table.json. The first 32 are the operations of rule R102 with the
operands of its "operands in" column; the last four are the wire formats, whose word is all the row has. -/
inductive Instr where
  | bbZero (n : Nat)
  | bbGetBit (buf : BitBuffer) (i : Int)
  | bbSetBit (buf : BitBuffer) (i : Int) (v : Nat)
  | bbGetField (buf : BitBuffer) (start width : Int)
  | bbSetField (buf : BitBuffer) (start width : Int) (v : Nat)
  | bbGetByte (buf : BitBuffer) (k : Int)
  | bbSetByte (buf : BitBuffer) (k : Int) (v : Nat)
  | encProState (rec : JoystickState)
  | decProState (buf : BitBuffer)
  | encProCfg (rec : ProConfig)
  | decProCfg (buf : BitBuffer)
  | encStdState (rec : JoystickState)
  | decStdState (buf : BitBuffer)
  | encStdCfg (rec : StdConfig)
  | decStdCfg (buf : BitBuffer)
  | checksum (buf : BitBuffer)
  | deadline (us : Word)
  | expired (dl : Word)
  | waitPin (p : InPin) (v : Bool) (dl : Word)
  | waitPulsePoll (dl : Word) (trig : Trigger)
  | waitPulseIrq (dl : Word) (trig : Trigger)
  | edgeCb
  | setupProJc
  | setupProTc
  | pollPro (inConfig : ProConfig) (waitMicros : Word)
  | sendPro (inState : JoystickState) (waitMicros : Word)
  | peekPro
  | setupStdJc
  | setupStdTc
  | pollStd (inConfig : StdConfig) (waitMicros : Word)
  | sendStd (inState : JoystickState) (waitMicros : Word)
  | peekStd
  | wireProState (w : BitVec 56)
  | wireProCfg (w : BitVec 19)
  | wireStdState (w : BitVec 64)
  | wireStdCfg (w : BitVec 8)
deriving DecidableEq, Repr, Inhabited

/-! ## How HOST selects an operation -/

/-- The operand values HOST has set up for its next call, the input records among them (rules R20, R278). Operands
are passed as values; only the operation code is encoded (spec/95_test_vectors.md section 11). -/
structure Args where
  n : Nat
  buf : BitBuffer
  i : Int
  start : Int
  width : Int
  k : Int
  v : Nat
  stateRec : JoystickState
  proCfg : ProConfig
  stdCfg : StdConfig
  us : Word
  dl : Word
  waitMicros : Word
  pin : InPin
  level : Bool
  trig : Trigger
deriving DecidableEq, Repr, Inhabited

/-- The operand values at reset: the records as HOST default-constructs them (rule R260), every other operand the
smallest value its operation accepts, over an all-zero 64-bit buffer (DESIGN CHOICE, log entry 5). -/
def Args.defaults : Args :=
  { n := 64, buf := ⟨64, List.replicate 8 0⟩, i := 0, start := 0, width := 1, k := 0, v := 0,
    stateRec := .defaults, proCfg := .defaults, stdCfg := .defaults, us := 0, dl := 0, waitMicros := 0,
    pin := .ctlIn, level := false, trig := .none }

/-- What selects an instruction: an operation code with operand values (rule R102), or a wire word of a given width,
which no code selects (rule R105). -/
inductive Code where
  | op (code : Byte) (args : Args)
  | wire (nbits : Nat) (bits : Nat)
deriving DecidableEq, Repr, Inhabited

/-- Why the decoder selects nothing. -/
inductive DecodeError where
  /-- No row of rule R102 has this operation code. -/
  | unknownOp (code : Byte)
  /-- The code is known; an operand value is outside the operation's domain (see WellFormed). -/
  | illFormed (code : Byte)
  /-- No wire format of rule R80 has this width. -/
  | unknownWidth (nbits : Nat)
deriving DecidableEq, Repr, Inhabited

end Sys2Proof
end

