-- ==== Sys2Proof/Config.lean ====
section
/-! DEFINITION. What is fixed when an engine instance is constructed (spec/00_scope.md R10 to R12, spec/10_state.md
R36): its variant, role and options, the timing parameters, and the parameters of spec/93_implementation_defined.md
U1 to U4; the moves of the agents; and the free values, opaque constants that nothing in Lean can evaluate. -/

namespace Sys2Proof

/-- The two variants (rule R2). -/
inductive Variant where
  | pro | std
deriving DecidableEq, Repr, Inhabited

/-- The two roles, each named after the device it talks to (rule R3). -/
inductive Role where
  | joystickClient | throttleClient
deriving DecidableEq, Repr, Inhabited

/-- The two PulseWaiter strategies (rule R10). -/
inductive Waiter where
  | polling | interruptCounted
deriving DecidableEq, Repr, Inhabited

/-- `LED_CODE` (rule R23, U4): the 2-bit wire code of each colour. `Config.wf` asks that it is a bijection. -/
structure LedCode where
  amber : BitVec 2
  green : BitVec 2
  red : BitVec 2
  off : BitVec 2
deriving DecidableEq, Repr, Inhabited

/-- `HAT1_RESERVED` (rule R99, U1): what each `hat1` code 9 to 15 decodes to, in both variants. -/
structure ReservedHats where
  c9 : Direction
  c10 : Direction
  c11 : Direction
  c12 : Direction
  c13 : Direction
  c14 : Direction
  c15 : Direction
deriving DecidableEq, Repr, Inhabited

/-- `PRO_MODE_MULTI` (rule R99, U2): what a Pro mode pattern with several bits set decodes to; a field is named by
the buffer bits that are set. -/
structure MultiModes where
  m45m46 : Mode
  m45m47 : Mode
  m46m47 : Mode
  m45m46m47 : Mode
deriving DecidableEq, Repr, Inhabited

/-- The configuration of one engine instance: latched at construction, written by no operation (rule R36). It is plain
data of State so that every statement holds for every instance. -/
structure Config where
  /-- `VARIANT`, `ROLE`, `WAITER` and the option flags of rule R10. -/
  variant : Variant
  role : Role
  waiter : Waiter
  proStrict : Bool
  stdStrict : Bool
  busy : Bool
  debug : Bool
  /-- The timing parameters of rule R12. -/
  noPeerCode : Word
  proFrameTimeout : Word
  proBackoff : Word
  stdFrameTimeout : Word
  stdJcBackoff : Word
  stdTcBackoff : Word
  stdConfirmPulse : Word
  stdBitPulse : Word
  stdConfigPulse : Word
  stdCfgLow : Word
  stdCfgHigh : Word
  pollSleep : Word
  /-- The frame timeout of the peer the instance is to talk to, which the constraint of the back-offs names (rules R12,
  R223, R271). It is a fact about the peer: no operation reads it. -/
  peerFrameTimeout : Word
  /-- The parameters U1 to U4. -/
  ledCode : LedCode
  hat1Reserved : ReservedHats
  proModeMulti : MultiModes
  stdModeM47 : Bool
deriving DecidableEq, Repr, Inhabited

/-- The listing order Amber, Green, Red, Off (rule R88). -/
def LedCode.listing : LedCode := { amber := 0, green := 1, red := 2, off := 3 }

/-- The default of U1: every reserved code decodes to NoDirection (rule R99 (a)). -/
def ReservedHats.noDirection : ReservedHats := { c9 := 0, c10 := 0, c11 := 0, c12 := 0, c13 := 0, c14 := 0, c15 := 0 }

/-- The default of U2: every such pattern decodes to Undefined (rule R99 (b)). -/
def MultiModes.allUndefined : MultiModes :=
  { m45m46 := .undefined, m45m47 := .undefined, m46m47 := .undefined, m45m46m47 := .undefined }

/-- The configuration of the instance `State.reset` constructs: the option defaults of rule R10, the column TV of rule
R12 (for the peer too) and the default of U1 to U4. `VARIANT`, `ROLE` and `BUSY` have no default in the spec: a Std
JoystickClient that spins (DESIGN CHOICE, log entry 4). -/
def Config.initial : Config :=
  { variant := .std, role := .joystickClient, waiter := .interruptCounted, proStrict := false, stdStrict := false,
    busy := true, debug := false, noPeerCode := 1, proFrameTimeout := 5000, proBackoff := 20000,
    stdFrameTimeout := 20000, stdJcBackoff := 30000, stdTcBackoff := 30000, stdConfirmPulse := 15,
    stdBitPulse := 15, stdConfigPulse := 50, stdCfgLow := 20, stdCfgHigh := 20, pollSleep := 0,
    peerFrameTimeout := 20000,
    ledCode := .listing, hat1Reserved := .noDirection, proModeMulti := .allUndefined, stdModeM47 := true }

/-- This instance's own whole-frame timeout (rule R12). -/
def Config.frameTimeout (c : Config) : Word :=
  match c.variant with
  | .pro => c.proFrameTimeout
  | .std => c.stdFrameTimeout

/-- This instance's own back-off, the value `ERR` takes for every class but NoPeer (rules R12, R220). -/
def Config.backoff (c : Config) : Word :=
  match c.variant, c.role with
  | .pro, _ => c.proBackoff
  | .std, .joystickClient => c.stdJcBackoff
  | .std, .throttleClient => c.stdTcBackoff

/-! ## The moves of the agents -/

/-- One move of one agent of rule R13. -/
inductive Event where
  /-- ENGINE takes its next step. -/
  | engine
  /-- EDGECB runs once (rule R177). -/
  | edgecb
  /-- PEER drives the wire of CTL_IN (rule R70). -/
  | peerCtl (v : Bool)
  /-- PEER drives the wire of DATA_IN (rule R70). -/
  | peerData (v : Bool)
  /-- CLOCK advances by this many microseconds (rule R43). -/
  | clock (us : Word)
  /-- HOST changes its operand values and records (rule R278). -/
  | hostArgs (a : Args)
  /-- HOST calls the operation of this code on its current operand values (rule R102). -/
  | issue (code : Byte)
  /-- HOST constructs an instance of this configuration, in place of the one it had (rules R74, R191, R261). -/
  | construct (c : Config)
  /-- HOST presents a raw wire word of this width (log entry 3). -/
  | wire (nbits : Nat) (bits : Nat)
deriving DecidableEq, Repr, Inhabited

/-! ## Free values: no body, so no proof can rest on what they are -/

/-- The `n`-th move of the agents when no input is queued: which agent moves, and what PEER, CLOCK or HOST does
(U8, U11). -/
opaque Config.freeEvent : Nat → Event

/-- The `n`-th record a Std JoystickState decode with a wrong checksum returns (rule R141, U5). -/
opaque Config.freeRecord : Nat → JoystickState

/-- The mode a Std pattern with bit 47 set and mode field `f` (1 or 2) decodes to on an instance whose `STD_MODE_M47`
is false (U3 names the value false and gives it no meaning). -/
opaque Config.openStdMode : BitVec 2 → Mode

end Sys2Proof
end

