-- ==== Sys2Proof/WellFormed.lean ====
section
/-! DEFINITION. Which operand values an operation takes (spec/opcode_table.json, column "operands"), which
configurations are an instance (spec/00_scope.md R10, R12), and the form of a BitBuffer (spec/40_bitbuffer.md R110).
A call with an ill-formed operand selects nothing (Decode). -/

namespace Sys2Proof

/-- The number of backing bytes of a BitBuffer of `n` bits, `ceil(n/8)` (rule R110). -/
def byteCount (n : Nat) : Nat := (n + 7) / 8

/-- The form of a BitBuffer: a positive capacity and exactly `ceil(N/8)` backing bytes (rule R110). -/
def BitBuffer.wf (buf : BitBuffer) : Bool := decide (0 < buf.N) && decide (buf.bytes.length = byteCount buf.N)

/-- A bijection `LED_CODE` (rule R23): four different codes. -/
def LedCode.wf (l : LedCode) : Bool :=
  decide (l.amber ≠ l.green) && decide (l.amber ≠ l.red) && decide (l.amber ≠ l.off) && decide (l.green ≠ l.red) &&
    decide (l.green ≠ l.off) && decide (l.red ≠ l.off)

/-- A configuration that can be constructed: the constraints of rule R12, the back-off of this variant and role at least
the peer's frame timeout (rules R12, R223, R271; log entry 15), `LED_CODE` a bijection, and no Std instance with
`STD_STRICT` (rule R208). -/
def Config.wf (c : Config) : Bool :=
  decide (c.noPeerCode ≠ 0) &&
  decide (0 < c.proFrameTimeout.toNat ∧ c.proFrameTimeout.toNat < 2 ^ 31) &&
  decide (c.proBackoff ≠ 0 ∧ c.proBackoff ≠ c.noPeerCode) &&
  decide (0 < c.stdFrameTimeout.toNat ∧ c.stdFrameTimeout.toNat < 2 ^ 31) &&
  decide (c.stdJcBackoff ≠ 0 ∧ c.stdJcBackoff ≠ c.noPeerCode) &&
  decide (c.stdTcBackoff ≠ 0 ∧ c.stdTcBackoff ≠ c.noPeerCode) &&
  decide (15 ≤ c.stdConfirmPulse.toNat) && decide (0 < c.stdBitPulse.toNat) && decide (50 ≤ c.stdConfigPulse.toNat) &&
  decide (0 < c.stdCfgLow.toNat) && decide (0 < c.stdCfgHigh.toNat) && decide (c.pollSleep.toNat < 1000) &&
  decide (c.peerFrameTimeout.toNat ≤ c.backoff.toNat) && c.ledCode.wf && !(decide (c.variant = .std) && c.stdStrict)

/-- The well-formed operands: `N` of BB.ZERO in 1..64, and every BitBuffer operand in the form of rule R110. Indices,
starts, widths and byte indices are not limited here: outside their range they raise RangeFault (rule R226). -/
def Instr.wellFormed : Instr → Bool
  | .bbZero n => decide (1 ≤ n) && decide (n ≤ 64)
  | .bbGetBit buf _ => buf.wf
  | .bbSetBit buf _ _ => buf.wf
  | .bbGetField buf _ _ => buf.wf
  | .bbSetField buf _ _ _ => buf.wf
  | .bbGetByte buf _ => buf.wf
  | .bbSetByte buf _ _ => buf.wf
  | .encProState _ => true
  | .decProState buf => buf.wf
  | .encProCfg _ => true
  | .decProCfg buf => buf.wf
  | .encStdState _ => true
  | .decStdState buf => buf.wf
  | .encStdCfg _ => true
  | .decStdCfg buf => buf.wf
  | .checksum buf => buf.wf
  | .deadline _ => true
  | .expired _ => true
  | .waitPin _ _ _ => true
  | .waitPulsePoll _ _ => true
  | .waitPulseIrq _ _ => true
  | .edgeCb => true
  | .setupProJc => true
  | .setupProTc => true
  | .pollPro _ _ => true
  | .sendPro _ _ => true
  | .peekPro => true
  | .setupStdJc => true
  | .setupStdTc => true
  | .pollStd _ _ => true
  | .sendStd _ _ => true
  | .peekStd => true
  | .wireProState _ => true
  | .wireProCfg _ => true
  | .wireStdState _ => true
  | .wireStdCfg _ => true

end Sys2Proof
end

