-- ==== Sys2Proof/Decode.lean ====
section
/-! DEFINITION. The decoder from an operation code and its operand values (spec/30_encoding.md R102) or from a wire
word (R80, R105) to an instruction, total, refusing by name; then the encoder, written from the same tables. -/

namespace Sys2Proof

/-! ## Decoder -/

/-- The table of rule R102: the operation an 8-bit `OP` selects, with the operands its row names. -/
def decodeOp (code : Nat) (a : Args) : Option Instr :=
  match code with
  | 0x00 => some (.bbZero a.n)
  | 0x01 => some (.bbGetBit a.buf a.i)
  | 0x02 => some (.bbSetBit a.buf a.i a.v)
  | 0x03 => some (.bbGetField a.buf a.start a.width)
  | 0x04 => some (.bbSetField a.buf a.start a.width a.v)
  | 0x05 => some (.bbGetByte a.buf a.k)
  | 0x06 => some (.bbSetByte a.buf a.k a.v)
  | 0x10 => some (.encProState a.stateRec)
  | 0x11 => some (.decProState a.buf)
  | 0x12 => some (.encProCfg a.proCfg)
  | 0x13 => some (.decProCfg a.buf)
  | 0x20 => some (.encStdState a.stateRec)
  | 0x21 => some (.decStdState a.buf)
  | 0x22 => some (.encStdCfg a.stdCfg)
  | 0x23 => some (.decStdCfg a.buf)
  | 0x24 => some (.checksum a.buf)
  | 0x30 => some (.deadline a.us)
  | 0x31 => some (.expired a.dl)
  | 0x32 => some (.waitPin a.pin a.level a.dl)
  | 0x40 => some (.waitPulsePoll a.dl a.trig)
  | 0x41 => some (.waitPulseIrq a.dl a.trig)
  | 0x42 => some .edgeCb
  | 0x50 => some .setupProJc
  | 0x51 => some .setupProTc
  | 0x52 => some (.pollPro a.proCfg a.waitMicros)
  | 0x53 => some (.sendPro a.stateRec a.waitMicros)
  | 0x54 => some .peekPro
  | 0x60 => some .setupStdJc
  | 0x61 => some .setupStdTc
  | 0x62 => some (.pollStd a.stdCfg a.waitMicros)
  | 0x63 => some (.sendStd a.stateRec a.waitMicros)
  | 0x64 => some .peekStd
  | _ => none

/-- The wire format of a given width (rule R80): the width alone tells the four formats apart (rule R105). -/
def decodeWire (nbits bits : Nat) : Option Instr :=
  match nbits with
  | 56 => some (.wireProState (BitVec.ofNat 56 bits))
  | 19 => some (.wireProCfg (BitVec.ofNat 19 bits))
  | 64 => some (.wireStdState (BitVec.ofNat 64 bits))
  | 8 => some (.wireStdCfg (BitVec.ofNat 8 bits))
  | _ => none

/-- The decoder: an instruction with well-formed operands, or the reason why nothing is selected. -/
def decode : Code → Except DecodeError Instr
  | .op code a =>
    match decodeOp code.toNat a with
    | none => .error (.unknownOp code)
    | some i => if i.wellFormed then .ok i else .error (.illFormed code)
  | .wire nbits bits =>
    match decodeWire nbits bits with
    | none => .error (.unknownWidth nbits)
    | some i => .ok i

/-- What the decoder is given for a table row of `nbits` bits whose bits are `w`: an 8-bit row is an `OP` (format
`OP8`), read with the operand values `a`; a wider row is a wire word, 19 bits of it in 3 bytes (24 bits). -/
def tableCode (nbits w : Nat) (a : Args) : Code :=
  match nbits with
  | 8 => .op (BitVec.ofNat 8 w) a
  | 24 => .wire 19 (w % 2 ^ 19)
  | n => .wire n (w % 2 ^ n)

/-- The instruction the decoder reads from a table row's bits, with the operand values at reset. -/
def decodeTableWord (nbits w : Nat) : Option Instr :=
  match decode (tableCode nbits w Args.defaults) with
  | .ok i => some i
  | .error _ => none

/-- How a table row's bits come to be run: an `OP` is issued by HOST, but for 0x42, which the falling edge runs and
HOST never issues (rule R177); a wider row is presented as a wire word. -/
def tableEvent (nbits w : Nat) : Event :=
  match nbits with
  | 8 => if w % 256 = 0x42 then .edgecb else .issue (BitVec.ofNat 8 w)
  | 24 => .wire 19 (w % 2 ^ 19)
  | n => .wire n (w % 2 ^ n)

/-! ## Encoder -/

/-- The code of an instruction (rule R102): its `OP` and its operands in their places, every operand the row does not
name at its default; for a wire format its width and its bits. -/
def encode : Instr → Code
  | .bbZero n => .op 0x00 { Args.defaults with n := n }
  | .bbGetBit buf i => .op 0x01 { Args.defaults with buf := buf, i := i }
  | .bbSetBit buf i v => .op 0x02 { Args.defaults with buf := buf, i := i, v := v }
  | .bbGetField buf s w => .op 0x03 { Args.defaults with buf := buf, start := s, width := w }
  | .bbSetField buf s w v => .op 0x04 { Args.defaults with buf := buf, start := s, width := w, v := v }
  | .bbGetByte buf k => .op 0x05 { Args.defaults with buf := buf, k := k }
  | .bbSetByte buf k v => .op 0x06 { Args.defaults with buf := buf, k := k, v := v }
  | .encProState r => .op 0x10 { Args.defaults with stateRec := r }
  | .decProState buf => .op 0x11 { Args.defaults with buf := buf }
  | .encProCfg r => .op 0x12 { Args.defaults with proCfg := r }
  | .decProCfg buf => .op 0x13 { Args.defaults with buf := buf }
  | .encStdState r => .op 0x20 { Args.defaults with stateRec := r }
  | .decStdState buf => .op 0x21 { Args.defaults with buf := buf }
  | .encStdCfg r => .op 0x22 { Args.defaults with stdCfg := r }
  | .decStdCfg buf => .op 0x23 { Args.defaults with buf := buf }
  | .checksum buf => .op 0x24 { Args.defaults with buf := buf }
  | .deadline us => .op 0x30 { Args.defaults with us := us }
  | .expired dl => .op 0x31 { Args.defaults with dl := dl }
  | .waitPin p v dl => .op 0x32 { Args.defaults with pin := p, level := v, dl := dl }
  | .waitPulsePoll dl t => .op 0x40 { Args.defaults with dl := dl, trig := t }
  | .waitPulseIrq dl t => .op 0x41 { Args.defaults with dl := dl, trig := t }
  | .edgeCb => .op 0x42 Args.defaults
  | .setupProJc => .op 0x50 Args.defaults
  | .setupProTc => .op 0x51 Args.defaults
  | .pollPro r w => .op 0x52 { Args.defaults with proCfg := r, waitMicros := w }
  | .sendPro r w => .op 0x53 { Args.defaults with stateRec := r, waitMicros := w }
  | .peekPro => .op 0x54 Args.defaults
  | .setupStdJc => .op 0x60 Args.defaults
  | .setupStdTc => .op 0x61 Args.defaults
  | .pollStd r w => .op 0x62 { Args.defaults with stdCfg := r, waitMicros := w }
  | .sendStd r w => .op 0x63 { Args.defaults with stateRec := r, waitMicros := w }
  | .peekStd => .op 0x64 Args.defaults
  | .wireProState w => .wire 56 w.toNat
  | .wireProCfg w => .wire 19 w.toNat
  | .wireStdState w => .wire 64 w.toNat
  | .wireStdCfg w => .wire 8 w.toNat

end Sys2Proof
end

