-- ==== Sys2Proof/Machine/State.lean ====
section
/-! DEFINITION. The state of one engine instance and its surroundings, as plain data: every element of the summary of
spec/10_state.md rule R46, the environment and host state that rule names, and the model's own fields (a running
operation and its place inside a labelled phase, the record of primitive calls, the queue of coming events). -/

namespace Sys2Proof.Machine

/-- `PHASE` (rule R30): IDLE, the labels A to F and DONE of the Pro engine, P0 to P7 and S0 to S7 of the Std engine. -/
inductive Phase where
  | idle
  | a | b | c | d | e | f | done
  | p0 | p1 | p2 | p3 | p4 | p5 | p6 | p7
  | s0 | s1 | s2 | s3 | s4 | s5 | s6 | s7
deriving DecidableEq, Repr, Inhabited

/-- The primitive call a wait loop makes next (spec/43_timing_primitives.md, rule R162). -/
inductive WaitPos where
  | read | test | sleep
deriving DecidableEq, Repr, Inhabited

/-- The primitive call the counter poll loop makes next (spec/44_pulsewaiter.md, rule R174). -/
inductive CountPos where
  | count | test | pin | sleep
deriving DecidableEq, Repr, Inhabited

/-- The place inside a labelled phase, so that `(PHASE, CYC)` with it names the next primitive call (rules R19, R30). -/
inductive Sub where
  /-- The phase's first call. -/
  | start
  /-- The call of this number in a straight run of calls, the first being 0. -/
  | seq (n : Nat)
  /-- Inside the first `WaitPin` of the phase (of a polling `WaitForPulse`: the wait for the drop). -/
  | first (p : WaitPos)
  /-- Inside the second `WaitPin` of the phase (of a polling `WaitForPulse`: the wait for the return to idle). -/
  | second (p : WaitPos)
  /-- `WaitForPulse`, interrupt-counted: the snapshot of the counter. -/
  | snapshot
  /-- `WaitForPulse`: the trigger action. -/
  | trigger
  /-- `WaitForPulse`, interrupt-counted: inside the counter poll loop. -/
  | count (p : CountPos)
  /-- The `clock_read` that replaces the outer deadline by the frame deadline. -/
  | deadline
  /-- `PEEK.PRO` after its first read, with the level it read. -/
  | peeked (ctl : Bool)
  /-- `abort(code)`, before its first write (rule R232). -/
  | abortCtl (code : Word)
  /-- `abort(code)`, before its second write (rule R232). -/
  | abortData (code : Word)
deriving DecidableEq, Repr, Inhabited

/-- `PW_RESULT` (rules R31, R171). -/
inductive PulseResult where
  | finished | started | notStarted | tooMany
deriving DecidableEq, Repr, Inhabited

/-- One call of a collaborator primitive, with its arguments and its answer (spec/20_memory.md R51 to R57). -/
inductive PrimCall where
  | pinMode (p : Pin) (d : PinDir)
  | pinWrite (p : OutPin) (v : Bool)
  | pinRead (p : InPin) (v : Bool)
  | clockRead (t : Word)
  | delayUs (n : Word)
  | attachFalling (p : InPin)
  | counterRead (c : Word)
deriving DecidableEq, Repr, Inhabited

/-- What the last completed operation returned to HOST (rule R102, column "results out"); a `Decode` returns `(record, ok)`
(rule R104). -/
inductive Result where
  | nothing
  | buffer (buf : BitBuffer)
  | bit (v : Bool)
  | value (v : Word)
  | byte (v : Byte)
  | time (dl : Word)
  | flag (v : Bool)
  | pulse (r : PulseResult)
  | state (rec : JoystickState) (ok : Bool)
  | proConfig (rec : ProConfig) (ok : Bool)
  | stdConfig (rec : StdConfig) (ok : Bool)
  | code (v : Word)
deriving DecidableEq, Repr, Inhabited

/-- The output record an operation wrote (rule R20). -/
inductive OutRecord where
  | nothing
  | state (rec : JoystickState)
  | proConfig (rec : ProConfig)
  | stdConfig (rec : StdConfig)
deriving DecidableEq, Repr, Inhabited

/-- What HOST has of one operation that returned: its return value and, of a successful data-plane operation, its output
record (rules R278, R279). -/
structure Answer where
  result : Result
  record : OutRecord
deriving DecidableEq, Repr, Inhabited

/-- Why a call was turned away: no primitive call, no state change, no result (rules R102, R103, R263, R265, U9). -/
inductive TurnAway where
  /-- The decoder selects nothing (rule R102). -/
  | undecodable (e : DecodeError)
  /-- The operation belongs to another variant, role or waiter (rule R103). -/
  | notAccepted
  /-- A Std instance with STD_STRICT, which is not constructible (rule R208, U7). -/
  | strictStd
  /-- POLL, SEND or PEEK before Setup (rule R263). -/
  | notSetUp
  /-- An operation of this instance is running (rules R76, R265). -/
  | busy
  /-- EDGECB is never issued by HOST (rules R102, R177). -/
  | callbackOnly
  /-- An instance of this configuration is not constructible (rules R12, R208, U7). -/
  | notConstructible
deriving DecidableEq, Repr, Inhabited

/-- The four classes of frame failure (spec/60_exceptions.md R220, R222 to R225). -/
inductive FrameFailure where
  | noPeer | peerUnresponsive | desync | checksumFailure
deriving DecidableEq, Repr, Inhabited

/-- Which BitBuffer access was out of range, with its index operands (spec/40_bitbuffer.md R111 to R116). -/
inductive Access where
  | getBit (i : Int)
  | setBit (i : Int)
  | getField (start width : Int)
  | setField (start width : Int)
  | getByte (k : Int)
  | setByte (k : Int)
deriving DecidableEq, Repr, Inhabited

/-- The information of `raise RangeFault`: the access and the capacity `N` of the buffer. -/
structure RangeInfo where
  access : Access
  capacity : Nat
deriving DecidableEq, Repr, Inhabited

/-- Why the machine stops. -/
inductive Fault where
  /-- `RangeFault` of rule R226: a BitBuffer access outside `[0, N)`, a field width outside 1..32, or a byte index
  outside `[0, ceil(N/8))`. Raised by the BB operations, and by a decode or CHECKSUM of a shorter buffer (rule
  R105). The spec names it and says the instance is dead: safe. -/
  | rangeFault (info : RangeInfo)
  /-- The model's own: `exec` was asked to go on with an operation at a place that operation does not have. Raised only
  from a state no run reaches (Safety, `State.inv`): safe. -/
  | lostPosition
deriving DecidableEq, Repr, Inhabited

/-- Why an instruction has no meaning. No arm of `exec` uses it. -/
inductive Refusal where
  /-- The instruction is not modelled: raised by no meaning, safe. -/
  | notModelled (mnemonic : String)
deriving DecidableEq, Repr, Inhabited

/-- The state of the machine. -/
structure State where
  /-- The configuration options and parameters (rule R36). -/
  cfg : Config
  /-- `TXBUF` (rule R29). -/
  txbuf : BitBuffer
  /-- `RXBUF` (rule R29). -/
  rxbuf : BitBuffer
  /-- `PHASE` (rule R30). -/
  phase : Phase
  /-- `CYC`, 7 bits (rule R30). -/
  cyc : BitVec 7
  /-- `PW_RESULT` (rule R31). -/
  pwResult : PulseResult
  /-- `OK` (rule R32). -/
  ok : Bool
  /-- `ERR` (rule R33). -/
  err : Word
  /-- `OUT_CTL`, the latch of CTL_OUT (rule R35). -/
  outCtl : Bool
  /-- `OUT_DATA`, the latch of DATA_OUT (rule R35). -/
  outData : Bool
  /-- The four pin directions (rules R35, R51). -/
  dirCtlOut : PinDir
  dirDataOut : PinDir
  dirCtlIn : PinDir
  dirDataIn : PinDir
  /-- `SETUP_DONE` (rule R37). -/
  setupDone : Bool
  /-- `DL`, the active deadline (rule R38). -/
  dl : Word
  /-- `REQ` (rule R39). -/
  req : Bool
  /-- `EDGE_CNT` (rule R40). -/
  edgeCnt : Word
  /-- `BASE_CNT` (rule R41). -/
  baseCnt : Word
  /-- `EDGE_PENDING` (rule R42). -/
  edgePending : Nat
  /-- Whether `attach_falling(CTL_IN)` has been called (rules R56, R230, R242). -/
  attached : Bool
  /-- `NOW`, the microsecond clock (rule R43). -/
  now : Word
  /-- The last value ENGINE read from the clock, none before its first read: what rule R54 binds the next read to. -/
  lastRead : Option Word
  /-- `W_CTL_IN`, the wire of CTL_IN (rule R44). -/
  wCtlIn : Bool
  /-- `W_DATA_IN`, the wire of DATA_IN (rule R44). -/
  wDataIn : Bool
  /-- HOST's operand values, its input records among them (rules R20, R46, R278). -/
  args : Args
  /-- HOST's output record of each kind (rules R20, R46, R188). -/
  outState : JoystickState
  outProCfg : ProConfig
  outStdCfg : StdConfig
  /-- The model's own: the operation that is running (rule R13, "one operation at a time"). -/
  cur : Option Instr
  /-- The model's own: the place inside the phase. -/
  sub : Sub
  /-- The model's own: how many microseconds the `delay_us` in progress still has to last (rule R55). -/
  delayLeft : Nat
  /-- The model's own: the result of the last completed operation. -/
  result : Result
  /-- The model's own: why the last call was turned away, if it was. -/
  turned : Option TurnAway
  /-- The model's own ghost: the class of the last operation's frame failure, which `ERR` does not show (rule R221). -/
  failure : Option FrameFailure
  /-- The model's own: the primitive calls of the last started operation, newest first (rule R19). -/
  calls : List PrimCall
  /-- The model's own: the answers of all operations that have returned, newest first (rule R279). -/
  history : List Answer
  /-- The model's own: the coming events, oldest first. -/
  inputs : List Event
  /-- The model's own: how many free values have been drawn. -/
  free : Nat
deriving DecidableEq, Repr

/-- The width of `TXBUF` (rule R29). -/
def txWidth (c : Config) : Nat :=
  match c.variant, c.role with
  | .pro, .joystickClient => 19
  | .pro, .throttleClient => 56
  | .std, .joystickClient => 8
  | .std, .throttleClient => 64

/-- The width of `RXBUF` (rule R29). -/
def rxWidth (c : Config) : Nat :=
  match c.variant, c.role with
  | .pro, .joystickClient => 56
  | .pro, .throttleClient => 19
  | .std, .joystickClient => 64
  | .std, .throttleClient => 8

/-- An instance of this configuration right after construction (spec/70_reset_and_hazards.md rules R260, R261). Elements
that the table calls unspecified have the values of log entries 1 and 2. -/
def State.construct (c : Config) : State :=
  { cfg := c
    txbuf := ⟨txWidth c, List.replicate (byteCount (txWidth c)) 0⟩
    rxbuf := ⟨rxWidth c, List.replicate (byteCount (rxWidth c)) 0⟩
    phase := .idle
    cyc := 0
    pwResult := .finished
    ok := false
    err := 0
    outCtl := false
    outData := false
    dirCtlOut := .input
    dirDataOut := .input
    dirCtlIn := .input
    dirDataIn := .input
    setupDone := false
    dl := 0
    req := false
    edgeCnt := 0
    baseCnt := 0
    edgePending := 0
    attached := false
    now := 0
    lastRead := none
    wCtlIn := false
    wDataIn := false
    args := .defaults
    outState := .defaults
    outProCfg := .defaults
    outStdCfg := .defaults
    cur := none
    sub := .start
    delayLeft := 0
    result := .nothing
    turned := none
    failure := none
    calls := []
    history := []
    inputs := []
    free := 0 }

/-- The machine after reset: the instance of log entry 4, right after construction. -/
def State.reset : State := .construct .initial

/-- The outcome of a meaning. -/
abbrev Out := Host.Outcome State Fault Refusal

end Sys2Proof.Machine
end

