-- ==== Sys2Proof/Machine/Buffer.lean ====
section
/-! DEFINITION. The BitBuffer: little-endian bit storage (spec/20_memory.md R59, R61, R63) and its seven accesses
(spec/40_bitbuffer.md R110 to R117), each checked access beside the unchecked one it makes when in range. The laws of R118
hold of `zeros`, `getBit`, `setBit`, `getField`, `setField` and `getByte`. -/

namespace Sys2Proof.Machine

/-- `zeros(N)`: `ceil(N/8)` backing bytes, all zero, pad bits included (rules R110, R118 (e)). -/
def zeros (n : Nat) : BitBuffer := ⟨n, List.replicate (byteCount n) 0⟩

/-- Backing byte `k` (rule R115); outside the buffer, where no checked access reads, 0. -/
def rawByte (buf : BitBuffer) (k : Nat) : Byte := buf.bytes.getD k 0

/-- Replace backing byte `k` (rule R116). -/
def rawPutByte (buf : BitBuffer) (k : Nat) (v : Byte) : BitBuffer := { buf with bytes := buf.bytes.set k v }

/-- Bit `i` of the buffer is bit `i mod 8` of backing byte `i / 8` (rule R59). -/
def rawBit (buf : BitBuffer) (i : Nat) : Bool := (rawByte buf (i / 8)).getLsbD (i % 8)

/-- A byte with its bit `j` replaced, every other bit as it was (rule R112). -/
def putBitInByte (x : Byte) (j : Nat) (v : Bool) : Byte :=
  (x &&& ~~~(1#8 <<< j)) ||| (if v then 1#8 <<< j else 0#8)

/-- Replace bit `i` of the buffer (rule R112). -/
def rawPutBit (buf : BitBuffer) (i : Nat) (v : Bool) : BitBuffer :=
  rawPutByte buf (i / 8) (putBitInByte (rawByte buf (i / 8)) (i % 8) v)

/-- The unsigned field `[s:w]`: bit `j` of the value is buffer bit `s + j` (rule R113). -/
def rawField (buf : BitBuffer) (s : Nat) : Nat → Nat
  | 0 => 0
  | w + 1 => rawField buf s w + (if rawBit buf (s + w) then 2 ^ w else 0)

/-- Write the field `[s:w]`: buffer bit `s + j` becomes bit `j` of the value, for `j` below `w` (rule R114). -/
def rawPutField (buf : BitBuffer) (s : Nat) : Nat → Nat → BitBuffer
  | 0, _ => buf
  | w + 1, v => rawPutBit (rawPutField buf s w v) (s + w) (v.testBit w)

/-- A bit index is in range (rule R63). -/
def bitInRange (buf : BitBuffer) (i : Int) : Bool := decide (0 ≤ i) && decide (i < buf.N)

/-- A field is in range: `0 ≤ s`, `1 ≤ w ≤ 32` (`FIELD_MAX`), `s + w ≤ N` (rules R63, R113). -/
def fieldInRange (buf : BitBuffer) (s w : Int) : Bool :=
  decide (0 ≤ s) && decide (1 ≤ w) && decide (w ≤ 32) && decide (s + w ≤ buf.N)

/-- A byte index is in range: below `ceil(N/8)` (rules R63, R115). -/
def byteInRange (buf : BitBuffer) (k : Int) : Bool := decide (0 ≤ k) && decide (k < byteCount buf.N)

/-- `B.bit[i]` (rules R111, R118 (a)). -/
def getBit (buf : BitBuffer) (i : Int) : Except RangeInfo Bool :=
  if bitInRange buf i then .ok (rawBit buf i.toNat) else .error ⟨.getBit i, buf.N⟩

/-- `B.bit[i] <- v` (rules R112, R118 (a)). -/
def setBit (buf : BitBuffer) (i : Int) (v : Bool) : Except RangeInfo BitBuffer :=
  if bitInRange buf i then .ok (rawPutBit buf i.toNat v) else .error ⟨.setBit i, buf.N⟩

/-- `B.field[s:w]` (rules R113, R118 (b) to (f)). -/
def getField (buf : BitBuffer) (s w : Int) : Except RangeInfo Nat :=
  if fieldInRange buf s w then .ok (rawField buf s.toNat w.toNat) else .error ⟨.getField s w, buf.N⟩

/-- `B.field[s:w] <- v` (rules R114, R118 (b), (c)). -/
def setField (buf : BitBuffer) (s w : Int) (v : Nat) : Except RangeInfo BitBuffer :=
  if fieldInRange buf s w then .ok (rawPutField buf s.toNat w.toNat v) else .error ⟨.setField s w, buf.N⟩

/-- `B.byte[k]` (rules R115, R118 (d)). -/
def getByte (buf : BitBuffer) (k : Int) : Except RangeInfo Byte :=
  if byteInRange buf k then .ok (rawByte buf k.toNat) else .error ⟨.getByte k, buf.N⟩

/-- `B.byte[k] <- v` (rule R116). -/
def setByte (buf : BitBuffer) (k : Int) (v : Byte) : Except RangeInfo BitBuffer :=
  if byteInRange buf k then .ok (rawPutByte buf k.toNat v) else .error ⟨.setByte k, buf.N⟩

/-- A wire word laid in a buffer: buffer bit `k` is bit `k` of the word (spec/20_memory.md rule R60). -/
def bufferOfWord (n bits : Nat) : BitBuffer := rawPutField (zeros n) 0 n bits

end Sys2Proof.Machine
end

