-- ==== Sys2Proof/Machine/Ops.lean ====
section
/-! DEFINITION. The named operations every meaning is made of: the seven collaborator primitives (spec/20_memory.md
R51 to R57), the shared timing test (spec/43_timing_primitives.md R160, R161), starting, turning away and ending an
operation, and TAKING AN EXCEPTION: the frame abort (spec/60_exceptions.md R232) and the RangeFault (R226). -/

namespace Sys2Proof.Machine

/-! ## Primitives -/

/-- Record one primitive call (rule R19). -/
def logCall (c : PrimCall) (s : State) : State := { s with calls := c :: s.calls }

/-- `pin_mode(p, dir)` (rule R51). -/
def pinMode (p : Pin) (d : PinDir) (s : State) : State :=
  logCall (.pinMode p d)
    (match p with
     | .out .ctlOut => { s with dirCtlOut := d }
     | .out .dataOut => { s with dirDataOut := d }
     | .inp .ctlIn => { s with dirCtlIn := d }
     | .inp .dataIn => { s with dirDataIn := d })

/-- `pin_write(p, v)` (rule R52): the output latch. -/
def pinWrite (p : OutPin) (v : Bool) (s : State) : State :=
  logCall (.pinWrite p v)
    (match p with
     | .ctlOut => { s with outCtl := v }
     | .dataOut => { s with outData := v })

/-- The level of the wire of an input pin (rules R53, R70). -/
def wireLevel (p : InPin) (s : State) : Bool :=
  match p with
  | .ctlIn => s.wCtlIn
  | .dataIn => s.wDataIn

/-- `pin_read(p)` (rule R53): its answer is `wireLevel p s`; nothing but the record of calls changes. -/
def pinRead (p : InPin) (s : State) : State := logCall (.pinRead p (wireLevel p s)) s

/-- `clock_read()` (rule R54): its answer is `s.now`, which the next answer is bound to. -/
def clockRead (s : State) : State := logCall (.clockRead s.now) { s with lastRead := some s.now }

/-- `delay_us(n)` (rule R55): ENGINE makes no further step until the clock has advanced by `n`. -/
def delayUs (n : Word) (s : State) : State := logCall (.delayUs n) { s with delayLeft := n.toNat }

/-- `attach_falling(CTL_IN)` (rule R56). -/
def attachFalling (s : State) : State := logCall (.attachFalling .ctlIn) { s with attached := true }

/-- `counter_read()` (rule R57): its answer is `s.edgeCnt`; nothing but the record of calls changes. -/
def counterRead (s : State) : State := logCall (.counterRead s.edgeCnt) s

/-! ## Time -/

/-- `Deadline(us)` at the clock value `now` (rule R160). -/
def deadlineAt (now us : Word) : Word := now + us

/-- The outer deadline of a data-plane operation that waits for at most `wait` microseconds; a `wait` of 2^31 and more
behaves as 0 (rules R165, R276, U13; log entry 19). -/
def outerDeadline (now wait : Word) : Word := deadlineAt now (if wait.toNat < 2 ^ 31 then wait else 0)

/-- `Expired(dl)` at the clock value `now`: `sint32(dl -32 now) ≤ 0` (rule R161). -/
def expiredAt (dl now : Word) : Bool := decide (sint32 (dl - now) ≤ 0)

/-! ## Starting, turning away and ending an operation -/

/-- Turn a call away: no primitive call, no state change, no result (rules R102, R263, R265); only the answer HOST
sees is kept. -/
def turnAway (why : TurnAway) (s : State) : State := { s with turned := some why }

/-- Begin an operation at `(IDLE, 0)` (rule R30): it is the one that runs, and its record of calls is empty. -/
def launch (i : Instr) (s : State) : State :=
  { s with
    cur := some i, phase := .idle, cyc := 0, sub := .start, delayLeft := 0, result := .nothing, turned := none,
    failure := none, calls := [] }

/-- End an operation: back to `(IDLE, 0)` with its answer (rules R30, R279). -/
def finishWith (a : Answer) (s : State) : State :=
  { s with
    cur := none, phase := .idle, cyc := 0, sub := .start, delayLeft := 0, result := a.result
    history := a :: s.history }

/-- End an operation that writes no output record. -/
def finish (r : Result) (s : State) : State := finishWith ⟨r, .nothing⟩ s

/-- The output record is written to HOST's variable of its kind (rule R20). -/
def storeRecord (rec : OutRecord) (s : State) : State :=
  match rec with
  | .nothing => s
  | .state r => { s with outState := r }
  | .proConfig r => { s with outProCfg := r }
  | .stdConfig r => { s with outStdCfg := r }

/-- End a successful data-plane operation: the output record, `ERR <- 0`, return 0 (rules R33, R188, R278). -/
def finishFrame (rec : OutRecord) (s : State) : State :=
  finishWith ⟨.code 0, rec⟩ { storeRecord rec s with err := 0 }

/-- End a data-plane operation with the value of `ERR` (rule R33). -/
def finishCode (code : Word) (s : State) : State := finish (.code code) { s with err := code }

/-! ## Taking an exception -/

/-- The idle level of CTL_OUT: 1 for the Std ThrottleClient, else 0 (rules R35, R232). -/
def idleCtl (c : Config) : Bool := decide (c.variant = .std) && decide (c.role = .throttleClient)

/-- The value `ERR` takes for a class of frame failure: the table of rule R220. -/
def failureCode (f : FrameFailure) (c : Config) : Word :=
  match f with
  | .noPeer => c.noPeerCode
  | .peerUnresponsive => c.backoff
  | .desync => c.backoff
  | .checksumFailure => c.backoff

/-- A frame failure is detected: the next primitive calls are the two writes of `abort(code)` (rule R232). -/
def beginAbort (f : FrameFailure) (s : State) : Out :=
  .next { s with sub := .abortCtl (failureCode f s.cfg), failure := some f }

/-- `abort(code)`, first call: CTL_OUT to its idle level (rule R232 (1)). -/
def abortCtlStep (code : Word) (s : State) : Out :=
  .next { pinWrite .ctlOut (idleCtl s.cfg) s with sub := .abortData code }

/-- `abort(code)`, second call: DATA_OUT to 0; then `(IDLE, 0)`, `ERR`, and the return to HOST (rule R232 (2) to (5)),
which is the return from the exception: there is no other (rule R234). -/
def abortDataStep (code : Word) (s : State) : Out := .next (finishCode code (pinWrite .dataOut false s))

/-- A step of a data-plane operation: the writes of an abort in progress, else the operation's own step. -/
def orAbort (s : State) (own : State → Out) : Out :=
  match s.sub with
  | .abortCtl code => abortCtlStep code s
  | .abortData code => abortDataStep code s
  | _ => own s

/-- `raise RangeFault`: the computation stops (rule R226); what was computed, if the access was in range. -/
def orRangeFault {α : Type} (r : Except RangeInfo α) (k : α → Out) : Out :=
  match r with
  | .error info => .fault (.rangeFault info)
  | .ok v => k v

/-- Go on at another place of the running operation. -/
def goto (p : Phase) (c : BitVec 7) (sub : Sub) (s : State) : State := { s with phase := p, cyc := c, sub := sub }

/-! ## The surroundings -/

/-- PEER drives the wire of CTL_IN: a 1 to 0 change after `attach_falling` is a pending edge (rules R56, R177). -/
def peerDrivesCtl (v : Bool) (s : State) : State :=
  { s with wCtlIn := v, edgePending := if s.attached && s.wCtlIn && !v then s.edgePending + 1 else s.edgePending }

/-- PEER drives the wire of DATA_IN (rule R70). -/
def peerDrivesData (v : Bool) (s : State) : State := { s with wDataIn := v }

/-- How far the clock may still advance until ENGINE reads it again: successive reads `a`, `b` have
`0 ≤ sint32(b -32 a)` (rule R54; log entry 10). -/
def clockRoom (s : State) : Nat :=
  match s.lastRead with
  | none => 2 ^ 32 - 1
  | some a => 2 ^ 31 - 1 - (s.now - a).toNat

/-- CLOCK advances by `us`, as far as rule R54 lets it: the clock wraps modulo 2^32, a `delay_us` in progress comes `us`
nearer its end (rules R43, R54, R55; log entries 10 and 11). -/
def clockAdvances (us : Word) (s : State) : State :=
  { s with
    now := s.now + BitVec.ofNat 32 (min us.toNat (clockRoom s)), delayLeft := s.delayLeft - us.toNat }

/-- HOST changes its operand values (rule R278). -/
def hostSets (a : Args) (s : State) : State := { s with args := a }

/-- HOST constructs an instance of configuration `c` in place of the one it had, whatever that was doing: every element
of the engine is as `State.construct` has it, but for the pins, which construction does not touch; the surroundings stay
(R74, R261). -/
def newInstance (c : Config) (s : State) : State :=
  { State.construct c with
    outCtl := s.outCtl, outData := s.outData, dirCtlOut := s.dirCtlOut, dirDataOut := s.dirDataOut
    dirCtlIn := s.dirCtlIn, dirDataIn := s.dirDataIn, now := s.now, lastRead := s.lastRead
    wCtlIn := s.wCtlIn, wDataIn := s.wDataIn
    args := s.args, outState := s.outState, outProCfg := s.outProCfg, outStdCfg := s.outStdCfg
    history := s.history, inputs := s.inputs, free := s.free }

/-- HOST's construction, the only reset (rule R261), at any time: in mid-frame too, where the operation that runs is
abandoned at the levels it has driven so far (rule R191 (b)). It is turned away for a configuration that is none (rules
R12, R208). -/
def hostConstructs (c : Config) (s : State) : State :=
  if c.wf then newInstance c s else turnAway .notConstructible s

/-- The level PEER sees on the wire of CTL_OUT; none while the pin is not an output (rules R35, R51). -/
def wireCtlOut (s : State) : Option Bool :=
  match s.dirCtlOut with
  | .output => some s.outCtl
  | .input => none

/-- The level PEER sees on the wire of DATA_OUT; none while the pin is not an output (rules R35, R51). -/
def wireDataOut (s : State) : Option Bool :=
  match s.dirDataOut with
  | .output => some s.outData
  | .input => none

end Sys2Proof.Machine
end

