-- ==== Sys2Proof/Machine/Flags.lean ====
section
/-! DEFINITION. The flags: `PW_RESULT`, `OK` and `ERR` (spec/10_state.md R31 to R33), who writes them and how their
values are numbered. -/

namespace Sys2Proof.Machine

/-- The 2-bit numbering of `PW_RESULT` (spec/44_pulsewaiter.md rule R171). -/
def pulseCode : PulseResult → BitVec 2
  | .finished => 0
  | .started => 1
  | .notStarted => 2
  | .tooMany => 3

/-- The number of a Mode at the host interface (rule R22). -/
def modeCode : Mode → BitVec 2
  | .undefined => 0
  | .mode1 => 1
  | .mode2 => 2
  | .mode3 => 3

/-- `WaitForPulse` writes `PW_RESULT` (rule R31). -/
def setPulse (r : PulseResult) (s : State) : State := { s with pwResult := r }

/-- A decode writes `OK` (rule R32). -/
def setOk (v : Bool) (s : State) : State := { s with ok := v }

/-- End a decode operation, which returns `(record, ok)` and writes `OK` (rules R32, R104); `r` is the record, still
without its `ok`. -/
def finishDecode (r : Bool → Result) (ok : Bool) (s : State) : State := finish (r ok) (setOk ok s)

/-- The result of the interrupt-counted timeout from the level of CTL_IN (rule R175). -/
def timeoutResult (level : Bool) : PulseResult := if level then .notStarted else .started

end Sys2Proof.Machine
end

