-- ==== Sys2Proof/Machine/Operands.lean ====
section
/-! DEFINITION. What an operation needs before it runs: which instance accepts it (spec/30_encoding.md R103,
spec/70_reset_and_hazards.md R263, R265), and the two shapes of a meaning (one step, or a running operation). -/

namespace Sys2Proof.Machine

/-- The instance has this variant and role. -/
def isInstance (c : Config) (v : Variant) (r : Role) : Bool := decide (c.variant = v) && decide (c.role = r)

/-- Why a Setup is turned away, if it is: another variant or role, or a Std instance with STD_STRICT (R103, R208). -/
def setupRefusal (v : Variant) (r : Role) (s : State) : Option TurnAway :=
  if !isInstance s.cfg v r then some .notAccepted
  else if decide (v = .std) && s.cfg.stdStrict then some .strictStd
  else none

/-- Why a data-plane operation or a PEEK is turned away: as a Setup, or before Setup (rule R263). -/
def planeRefusal (v : Variant) (r : Role) (s : State) : Option TurnAway :=
  match setupRefusal v r s with
  | some t => some t
  | none => if s.setupDone then none else some .notSetUp

/-- Why a WAITPULSE is turned away: it exists only in a Std JoystickClient with this waiter (rule R103). -/
def waiterRefusal (w : Waiter) (s : State) : Option TurnAway :=
  match setupRefusal .std .joystickClient s with
  | some t => some t
  | none => if s.cfg.waiter = w then none else some .notAccepted

/-- A meaning that is one step of ENGINE: turned away while another operation runs (rule R265). -/
def oneStep (refusal : Option TurnAway) (i : Instr) (s : State) (own : State → Out) : Out :=
  match s.cur with
  | some _ => .next (turnAway .busy s)
  | none =>
    match refusal with
    | some t => .next (turnAway t s)
    | none => own (launch i s)

/-- A meaning that is a running operation: when nothing runs it is started, unless it is turned away; while it runs it
makes its next step, once a `delay_us` in progress is over; another running operation turns it away (R13, R55, R265). -/
def running (refusal : Option TurnAway) (i : Instr) (s : State) (own : State → Out) : Out :=
  match s.cur with
  | none =>
    match refusal with
    | some t => .next (turnAway t s)
    | none => own (launch i s)
  | some j =>
    if j = i then (if s.delayLeft = 0 then own s else .next s) else .next (turnAway .busy s)

end Sys2Proof.Machine
end

