-- ==== Sys2Proof/Machine/BitBufferOps.lean ====
section
/-! DEFINITION. The BitBuffer family (spec/40_bitbuffer.md R110 to R117): one meaning per operation, over the accesses
of Buffer. None does I/O or writes a flag. -/

namespace Sys2Proof.Machine

/-- BB.ZERO (rule R110). -/
def execBbZero (n : Nat) (s : State) : Out :=
  oneStep none (.bbZero n) s fun s => .next (finish (.buffer (zeros n)) s)

/-- BB.GETBIT (rule R111). -/
def execBbGetBit (buf : BitBuffer) (i : Int) (s : State) : Out :=
  oneStep none (.bbGetBit buf i) s fun s =>
    orRangeFault (getBit buf i) fun v => .next (finish (.bit v) s)

/-- BB.SETBIT (rule R112): only bit 0 of `v` is used. -/
def execBbSetBit (buf : BitBuffer) (i : Int) (v : Nat) (s : State) : Out :=
  oneStep none (.bbSetBit buf i v) s fun s =>
    orRangeFault (setBit buf i (v.testBit 0)) fun b => .next (finish (.buffer b) s)

/-- BB.GETFIELD (rule R113): unsigned, zero-extended. -/
def execBbGetField (buf : BitBuffer) (start width : Int) (s : State) : Out :=
  oneStep none (.bbGetField buf start width) s fun s =>
    orRangeFault (getField buf start width) fun v => .next (finish (.value (BitVec.ofNat 32 v)) s)

/-- BB.SETFIELD (rule R114): bits of `v` at positions from `width` on are ignored. -/
def execBbSetField (buf : BitBuffer) (start width : Int) (v : Nat) (s : State) : Out :=
  oneStep none (.bbSetField buf start width v) s fun s =>
    orRangeFault (setField buf start width v) fun b => .next (finish (.buffer b) s)

/-- BB.GETBYTE (rule R115). -/
def execBbGetByte (buf : BitBuffer) (k : Int) (s : State) : Out :=
  oneStep none (.bbGetByte buf k) s fun s =>
    orRangeFault (getByte buf k) fun v => .next (finish (.byte v) s)

/-- BB.SETBYTE (rule R116): only `v[7:0]` is used. -/
def execBbSetByte (buf : BitBuffer) (k : Int) (v : Nat) (s : State) : Out :=
  oneStep none (.bbSetByte buf k v) s fun s =>
    orRangeFault (setByte buf k (BitVec.ofNat 8 v)) fun b => .next (finish (.buffer b) s)

end Sys2Proof.Machine
end

