-- ==== Sys2Proof/Machine/CodecPro.lean ====
section
/-! DEFINITION. The Pro codec (spec/41_codec_pro.md R120 to R130) over the layouts of spec/30_encoding.md R81 and R86:
the helper tables, the four mappings, and the four operations. -/

namespace Sys2Proof.Machine

/-- A Boolean as a field value (the `b(x)` of the pseudocode). -/
def bitOf (v : Bool) : Nat := if v then 1 else 0

/-- `ProHat1Code` (rule R122); an invalid Direction has code 0 (rule R127). -/
def proHat1Code (d : Direction) : Nat :=
  match d.toNat with
  | 2 => 1
  | 3 => 2
  | 1 => 3
  | 9 => 4
  | 8 => 5
  | 12 => 6
  | 4 => 7
  | 6 => 8
  | _ => 0

/-- What a `hat1` code from 9 to 15 decodes to, in both variants (rule R99 (a), U1). -/
def reservedHat (r : ReservedHats) (code : Nat) : Direction :=
  match code with
  | 9 => r.c9
  | 10 => r.c10
  | 11 => r.c11
  | 12 => r.c12
  | 13 => r.c13
  | 14 => r.c14
  | 15 => r.c15
  | _ => 0

/-- `ProHat1Dir` (rules R83, R122). -/
def proHat1Dir (cfg : Config) (code : Nat) : Direction :=
  match code with
  | 0 => 0
  | 1 => 2
  | 2 => 3
  | 3 => 1
  | 4 => 9
  | 5 => 8
  | 6 => 12
  | 7 => 4
  | 8 => 6
  | n => reservedHat cfg.hat1Reserved n

/-- The Direction mask with these cardinals (rule R21). -/
def directionOf (right down left up : Bool) : Direction :=
  BitVec.ofNat 4 (bitOf right + 2 * bitOf down + 4 * bitOf left + 8 * bitOf up)

/-- `ProMode` (rules R84, R124); several bits set is the parameter U2. -/
def proMode (cfg : Config) (m1 m2 m3 : Bool) : Mode :=
  match m1, m2, m3 with
  | true, false, false => .mode1
  | false, true, false => .mode2
  | false, false, true => .mode3
  | false, false, false => .undefined
  | true, true, false => cfg.proModeMulti.m45m46
  | true, false, true => cfg.proModeMulti.m45m47
  | false, true, true => cfg.proModeMulti.m46m47
  | true, true, true => cfg.proModeMulti.m45m46m47

/-- `LED_CODE` (rule R23). -/
def ledEncode (l : LedCode) (c : LedColor) : Nat :=
  match c with
  | .amber => l.amber.toNat
  | .green => l.green.toNat
  | .red => l.red.toNat
  | .off => l.off.toNat

/-- `LED_CODE^-1` (rule R126); for a bijection the last case is the code of Off. -/
def ledDecode (l : LedCode) (v : Nat) : LedColor :=
  if v = l.amber.toNat then .amber
  else if v = l.green.toNat then .green
  else if v = l.red.toNat then .red
  else .off

/-- `Encode` of a Pro JoystickState (rules R81, R120): 56 bits. -/
def encProState (r : JoystickState) : BitBuffer :=
  let buf := zeros 56
  let buf := rawPutField buf 0 8 (r.x.toNat &&& 0xFF)
  let buf := rawPutField buf 16 2 ((r.x.toNat >>> 8) &&& 3)
  let buf := rawPutField buf 8 8 (r.y.toNat &&& 0xFF)
  let buf := rawPutField buf 18 2 ((r.y.toNat >>> 8) &&& 3)
  let buf := rawPutField buf 24 8 (r.z.toNat &&& 0xFF)
  let buf := rawPutField buf 22 2 ((r.z.toNat >>> 8) &&& 3)
  let buf := rawPutField buf 32 4 (proHat1Code r.hat1)
  let buf := rawPutBit buf 36 (r.hat2.getLsbD 3)
  let buf := rawPutBit buf 37 (r.hat2.getLsbD 0)
  let buf := rawPutBit buf 38 (r.hat2.getLsbD 1)
  let buf := rawPutBit buf 39 (r.hat2.getLsbD 2)
  let buf := rawPutBit buf 40 r.trigger1
  let buf := rawPutBit buf 41 r.fire
  let buf := rawPutBit buf 42 r.a
  let buf := rawPutBit buf 43 r.c
  let buf := rawPutBit buf 44 r.trigger2
  let buf := rawPutBit buf 45 (decide (r.mode = .mode1))
  let buf := rawPutBit buf 46 (decide (r.mode = .mode2))
  let buf := rawPutBit buf 47 (decide (r.mode = .mode3))
  let buf := rawPutBit buf 48 r.b
  let buf := rawPutBit buf 49 r.pinkie
  let buf := rawPutBit buf 50 r.t1
  let buf := rawPutBit buf 51 r.t2
  let buf := rawPutBit buf 52 r.t3
  let buf := rawPutBit buf 53 r.t4
  let buf := rawPutBit buf 54 r.t5
  rawPutBit buf 55 r.t6

/-- `Decode` of a Pro JoystickState (rule R121), read in the order of its pseudocode; a shorter buffer raises
RangeFault at the first access beyond it (rule R105). -/
def decProState (cfg : Config) (buf : BitBuffer) : Except RangeInfo JoystickState := do
  let x0 ← getField buf 0 8
  let x1 ← getField buf 16 2
  let y0 ← getField buf 8 8
  let y1 ← getField buf 18 2
  let z0 ← getField buf 24 8
  let z1 ← getField buf 22 2
  let hat1 ← getField buf 32 4
  let up ← getBit buf 36
  let right ← getBit buf 37
  let down ← getBit buf 38
  let left ← getBit buf 39
  let trigger1 ← getBit buf 40
  let fire ← getBit buf 41
  let a ← getBit buf 42
  let c ← getBit buf 43
  let trigger2 ← getBit buf 44
  let m1 ← getBit buf 45
  let m2 ← getBit buf 46
  let m3 ← getBit buf 47
  let b ← getBit buf 48
  let pinkie ← getBit buf 49
  let t1 ← getBit buf 50
  let t2 ← getBit buf 51
  let t3 ← getBit buf 52
  let t4 ← getBit buf 53
  let t5 ← getBit buf 54
  let t6 ← getBit buf 55
  .ok
    { x := BitVec.ofNat 16 (x0 ||| (x1 <<< 8)), y := BitVec.ofNat 16 (y0 ||| (y1 <<< 8))
      z := BitVec.ofNat 16 (z0 ||| (z1 <<< 8)), hat1 := proHat1Dir cfg hat1
      hat2 := directionOf right down left up, mode := proMode cfg m1 m2 m3
      trigger1 := trigger1, fire := fire, a := a, c := c, trigger2 := trigger2, b := b, pinkie := pinkie
      t1 := t1, t2 := t2, t3 := t3, t4 := t4, t5 := t5, t6 := t6 }

/-- `Encode` of a Pro JoystickConfig (rules R86, R125): 19 bits, `fire_led` inverted (rule R87). -/
def encProCfg (l : LedCode) (r : ProConfig) : BitBuffer :=
  let buf := zeros 19
  let buf := rawPutField buf 0 5 (r.brightness.toNat &&& 0x1F)
  let buf := rawPutBit buf 5 r.pov1Blink
  let buf := rawPutField buf 6 2 (ledEncode l r.buttonALed)
  let buf := rawPutField buf 8 2 (ledEncode l r.pov2Led)
  let buf := rawPutBit buf 10 (!r.fireLed)
  let buf := rawPutField buf 11 2 (ledEncode l r.buttonBLed)
  let buf := rawPutField buf 13 2 (ledEncode l r.t1t2Led)
  let buf := rawPutField buf 15 2 (ledEncode l r.t3t4Led)
  rawPutField buf 17 2 (ledEncode l r.t5t6Led)

/-- `Decode` of a Pro JoystickConfig (rule R126). -/
def decProCfg (l : LedCode) (buf : BitBuffer) : Except RangeInfo ProConfig := do
  let brightness ← getField buf 0 5
  let blink ← getBit buf 5
  let buttonA ← getField buf 6 2
  let pov2 ← getField buf 8 2
  let fireN ← getBit buf 10
  let buttonB ← getField buf 11 2
  let t1t2 ← getField buf 13 2
  let t3t4 ← getField buf 15 2
  let t5t6 ← getField buf 17 2
  .ok
    { brightness := BitVec.ofNat 8 brightness, pov1Blink := blink, fireLed := !fireN
      buttonALed := ledDecode l buttonA, pov2Led := ledDecode l pov2, buttonBLed := ledDecode l buttonB
      t1t2Led := ledDecode l t1t2, t3t4Led := ledDecode l t3t4, t5t6Led := ledDecode l t5t6 }

/-- ENC.PRO.STATE (rule R120). -/
def execEncProState (rec : JoystickState) (s : State) : Out :=
  oneStep none (.encProState rec) s fun s => .next (finish (.buffer (encProState rec)) s)

/-- DEC.PRO.STATE (rule R121): `OK` is always true. -/
def execDecProState (buf : BitBuffer) (s : State) : Out :=
  oneStep none (.decProState buf) s fun s =>
    orRangeFault (decProState s.cfg buf) fun r => .next (finishDecode (.state r) true s)

/-- ENC.PRO.CFG (rule R125). -/
def execEncProCfg (rec : ProConfig) (s : State) : Out :=
  oneStep none (.encProCfg rec) s fun s => .next (finish (.buffer (encProCfg s.cfg.ledCode rec)) s)

/-- DEC.PRO.CFG (rule R126): `OK` is always true. -/
def execDecProCfg (buf : BitBuffer) (s : State) : Out :=
  oneStep none (.decProCfg buf) s fun s =>
    orRangeFault (decProCfg s.cfg.ledCode buf) fun r => .next (finishDecode (.proConfig r) true s)

end Sys2Proof.Machine
end

