-- ==== Sys2Proof/Machine/CodecStd.lean ====
section
/-! DEFINITION. The Std codec and the checksum validator (spec/42_codec_std.md R140 to R151) over the layouts of
spec/30_encoding.md R90 and R96. -/

namespace Sys2Proof.Machine

/-- `StdHat1Code` (rule R142); an invalid Direction has code 0 (rule R147). -/
def stdHat1Code (d : Direction) : Nat :=
  match d.toNat with
  | 8 => 1
  | 9 => 2
  | 1 => 3
  | 3 => 4
  | 2 => 5
  | 6 => 6
  | 4 => 7
  | 12 => 8
  | _ => 0

/-- `StdHat1Dir` (rules R92, R142). -/
def stdHat1Dir (cfg : Config) (code : Nat) : Direction :=
  match code with
  | 0 => 0
  | 1 => 8
  | 2 => 9
  | 3 => 1
  | 4 => 3
  | 5 => 2
  | 6 => 6
  | 7 => 4
  | 8 => 12
  | n => reservedHat cfg.hat1Reserved n

/-- `StdMode(m, f)` (rules R93, R144); bit 47 set with field 1 or 2 is the parameter U3. -/
def stdMode (cfg : Config) (m : Bool) (f : Nat) : Mode :=
  match f with
  | 0 => if m then .mode1 else .undefined
  | 1 => if m && !cfg.stdModeM47 then Config.openStdMode 1 else .mode2
  | 2 => if m && !cfg.stdModeM47 then Config.openStdMode 2 else .mode3
  | _ => .undefined

/-- The mode field `[54:2]` an encode writes (rule R144). -/
def stdModeField (m : Mode) : Nat :=
  match m with
  | .undefined => 0
  | .mode1 => 0
  | .mode2 => 1
  | .mode3 => 2

/-- The XOR of bytes 0 to `n - 1` (rule R145). -/
def xorBytes (buf : BitBuffer) : Nat → Byte
  | 0 => 0
  | n + 1 => xorBytes buf n ^^^ rawByte buf n

/-- `CHECKSUM` (rule R145), read byte by byte from byte 0; a shorter buffer raises RangeFault (rule R105). -/
def checksumOf (buf : BitBuffer) : Except RangeInfo Byte := do
  let b0 ← getByte buf 0
  let b1 ← getByte buf 1
  let b2 ← getByte buf 2
  let b3 ← getByte buf 3
  let b4 ← getByte buf 4
  let b5 ← getByte buf 5
  let b6 ← getByte buf 6
  .ok (b0 ^^^ b1 ^^^ b2 ^^^ b3 ^^^ b4 ^^^ b5 ^^^ b6)

/-- The 56 payload bits of a Std JoystickState (rule R90), in a 64-bit buffer whose byte 7 is still 0. -/
def encStdPayload (r : JoystickState) : BitBuffer :=
  let buf := zeros 64
  let buf := rawPutField buf 0 8 (r.x.toNat &&& 0xFF)
  let buf := rawPutField buf 16 3 ((r.x.toNat >>> 8) &&& 7)
  let buf := rawPutField buf 8 8 (r.y.toNat &&& 0xFF)
  let buf := rawPutField buf 19 3 ((r.y.toNat >>> 8) &&& 7)
  let buf := rawPutField buf 24 8 (r.z.toNat &&& 0xFF)
  let buf := rawPutField buf 22 2 ((r.z.toNat >>> 8) &&& 3)
  let buf := rawPutField buf 32 4 (stdHat1Code r.hat1)
  let buf := rawPutBit buf 36 (r.hat2.getLsbD 0)
  let buf := rawPutBit buf 37 (r.hat2.getLsbD 1)
  let buf := rawPutBit buf 38 (r.hat2.getLsbD 2)
  let buf := rawPutBit buf 39 (r.hat2.getLsbD 3)
  let buf := rawPutBit buf 40 r.trigger1
  let buf := rawPutBit buf 41 r.trigger2
  let buf := rawPutBit buf 42 r.fire
  let buf := rawPutBit buf 43 r.a
  let buf := rawPutBit buf 44 r.b
  let buf := rawPutBit buf 45 r.c
  let buf := rawPutBit buf 46 r.pinkie
  let buf := rawPutBit buf 47 (decide (r.mode = .mode1))
  let buf := rawPutBit buf 48 r.t1
  let buf := rawPutBit buf 49 r.t2
  let buf := rawPutBit buf 50 r.t3
  let buf := rawPutBit buf 51 r.t4
  let buf := rawPutBit buf 52 r.t5
  let buf := rawPutBit buf 53 r.t6
  rawPutField buf 54 2 (stdModeField r.mode)

/-- `Encode` of a Std JoystickState (rule R140): the payload, and its checksum in byte 7. -/
def encStdState (r : JoystickState) : BitBuffer :=
  rawPutByte (encStdPayload r) 7 (xorBytes (encStdPayload r) 7)

/-- The fields of a Std JoystickState, read in the order of rule R141, without the checksum test. -/
def decStdFields (cfg : Config) (buf : BitBuffer) : Except RangeInfo JoystickState := do
  let x0 ← getField buf 0 8
  let x1 ← getField buf 16 3
  let y0 ← getField buf 8 8
  let y1 ← getField buf 19 3
  let z0 ← getField buf 24 8
  let z1 ← getField buf 22 2
  let hat1 ← getField buf 32 4
  let right ← getBit buf 36
  let down ← getBit buf 37
  let left ← getBit buf 38
  let up ← getBit buf 39
  let trigger1 ← getBit buf 40
  let trigger2 ← getBit buf 41
  let fire ← getBit buf 42
  let a ← getBit buf 43
  let b ← getBit buf 44
  let c ← getBit buf 45
  let pinkie ← getBit buf 46
  let m ← getBit buf 47
  let f ← getField buf 54 2
  let t1 ← getBit buf 48
  let t2 ← getBit buf 49
  let t3 ← getBit buf 50
  let t4 ← getBit buf 51
  let t5 ← getBit buf 52
  let t6 ← getBit buf 53
  .ok
    { x := BitVec.ofNat 16 (x0 ||| (x1 <<< 8)), y := BitVec.ofNat 16 (y0 ||| (y1 <<< 8))
      z := BitVec.ofNat 16 (z0 ||| (z1 <<< 8)), hat1 := stdHat1Dir cfg hat1
      hat2 := directionOf right down left up, mode := stdMode cfg m f
      trigger1 := trigger1, fire := fire, a := a, c := c, trigger2 := trigger2, b := b, pinkie := pinkie
      t1 := t1, t2 := t2, t3 := t3, t4 := t4, t5 := t5, t6 := t6 }

/-- `Decode` of a Std JoystickState (rule R141): the checksum is tested first; the record if it matches, none if the
decode fails. -/
def decStdState (cfg : Config) (buf : BitBuffer) : Except RangeInfo (Option JoystickState) := do
  let b7 ← getByte buf 7
  let sum ← checksumOf buf
  if b7 = sum then
    let r ← decStdFields cfg buf
    .ok (some r)
  else .ok none

/-- `Encode` of a Std JoystickConfig (rules R96, R148): 8 bits. -/
def encStdCfg (r : StdConfig) : BitBuffer :=
  rawPutBit (rawPutField (zeros 8) 0 7 (r.brightness.toNat &&& 0x7F)) 7 r.pov1Blink

/-- `Decode` of a Std JoystickConfig (rule R149). -/
def decStdCfg (buf : BitBuffer) : Except RangeInfo StdConfig := do
  let brightness ← getField buf 0 7
  let blink ← getBit buf 7
  .ok { brightness := BitVec.ofNat 8 brightness, pov1Blink := blink }

/-- Draw the record that a failed Std JoystickState decode returns: a free value (rule R141, U5). -/
def drawRecord (s : State) : JoystickState × State := (Config.freeRecord s.free, { s with free := s.free + 1 })

/-- End a Std JoystickState decode: the record and `OK`, or any record and `OK` false (rule R141). -/
def finishStdDecode (r : Option JoystickState) (s : State) : State :=
  match r with
  | some rec => finishDecode (.state rec) true s
  | none => finishDecode (.state (drawRecord s).1) false (drawRecord s).2

/-- ENC.STD.STATE (rule R140). -/
def execEncStdState (rec : JoystickState) (s : State) : Out :=
  oneStep none (.encStdState rec) s fun s => .next (finish (.buffer (encStdState rec)) s)

/-- DEC.STD.STATE (rule R141). -/
def execDecStdState (buf : BitBuffer) (s : State) : Out :=
  oneStep none (.decStdState buf) s fun s =>
    orRangeFault (decStdState s.cfg buf) fun r => .next (finishStdDecode r s)

/-- ENC.STD.CFG (rule R148). -/
def execEncStdCfg (rec : StdConfig) (s : State) : Out :=
  oneStep none (.encStdCfg rec) s fun s => .next (finish (.buffer (encStdCfg rec)) s)

/-- DEC.STD.CFG (rule R149): `OK` is always true. -/
def execDecStdCfg (buf : BitBuffer) (s : State) : Out :=
  oneStep none (.decStdCfg buf) s fun s =>
    orRangeFault (decStdCfg buf) fun r => .next (finishDecode (.stdConfig r) true s)

/-- CHECKSUM (rule R145). -/
def execChecksum (buf : BitBuffer) (s : State) : Out :=
  oneStep none (.checksum buf) s fun s =>
    orRangeFault (checksumOf buf) fun c => .next (finish (.byte c) s)

end Sys2Proof.Machine
end

