-- ==== Sys2Proof/Machine/Timing.lean ====
section
/-! DEFINITION. The shared timing helper (spec/43_timing_primitives.md R160 to R165): DEADLINE, EXPIRED, WAITPIN, and
the one step of `WaitPin` every engine uses. -/

namespace Sys2Proof.Machine

/-- One step of `WaitPin(p, v, dl)` at the place `pos` (rules R162, R163): the pin is read first, the deadline tested
second, and only an instance that is not BUSY then sleeps. `place` names the places of this wait, `reached` and
`isExpired` say what follows. -/
def waitStep (p : InPin) (v : Bool) (dl : Word) (pos : WaitPos) (place : WaitPos → Sub)
    (reached isExpired : State → Out) (s : State) : Out :=
  match pos with
  | .read => if wireLevel p s = v then reached (pinRead p s) else .next { pinRead p s with sub := place .test }
  | .test =>
    if expiredAt dl s.now then isExpired (clockRead s)
    else .next { clockRead s with sub := place (if s.cfg.busy then .read else .sleep) }
  | .sleep => .next { delayUs s.cfg.pollSleep s with sub := place .read }

/-- One step of WAITPIN as an operation of its own (rule R162). -/
def waitPinStep (p : InPin) (v : Bool) (dl : Word) (s : State) : Out :=
  let reached := fun s => Host.Outcome.next (finish (.flag true) s)
  let isExpired := fun s => Host.Outcome.next (finish (.flag false) s)
  match s.sub with
  | .start => waitStep p v dl .read .first reached isExpired s
  | .first pos => waitStep p v dl pos .first reached isExpired s
  | _ => .fault .lostPosition

/-- DEADLINE (rule R160). -/
def execDeadline (us : Word) (s : State) : Out :=
  oneStep none (.deadline us) s fun s => .next (finish (.time (deadlineAt s.now us)) (clockRead s))

/-- EXPIRED (rule R161). -/
def execExpired (dl : Word) (s : State) : Out :=
  oneStep none (.expired dl) s fun s => .next (finish (.flag (expiredAt dl s.now)) (clockRead s))

/-- WAITPIN (rule R162). -/
def execWaitPin (p : InPin) (v : Bool) (dl : Word) (s : State) : Out :=
  running none (.waitPin p v dl) s (waitPinStep p v dl)

end Sys2Proof.Machine
end

