-- ==== Sys2Proof/Machine/EnginePro.lean ====
section
/-! DEFINITION. The Pro frame engine (spec/45_engine_pro.md R180 to R188): SEND.PRO of the ThrottleClient, POLL.PRO of
the JoystickClient, and PEEK.PRO. One primitive call a step; the labels are those of the pseudocode of R181 and
R182. -/

namespace Sys2Proof.Machine

/-- The end of a cycle: the next cycle at its label A, or DONE after cycle 75 (rules R181, R182). -/
def proNextCycle (entry : Sub) (s : State) : Out :=
  if s.cyc.toNat < 75 then .next (goto .a (s.cyc + 1) entry s) else .next (goto .done s.cyc .start s)

/-- The `clock_read` at the end of cycle 0: the frame deadline replaces the outer one (rule R185). -/
def proFrameDeadline (entry : Sub) (s : State) : Out :=
  proNextCycle entry { clockRead s with dl := deadlineAt s.now s.cfg.proFrameTimeout }

/-- The class of a timeout in the first wait of a cycle: NoPeer in cycle 0, else PeerUnresponsive (rule R186). -/
def proFirstWait (s : State) : FrameFailure := if s.cyc = 0 then .noPeer else .peerUnresponsive

/-! ## SEND.PRO -/

/-- IDLE: encode, clear `RXBUF`, the outer deadline (rule R181). -/
def sendProIdle (st : JoystickState) (wait : Word) (s : State) : Out :=
  .next (goto .a 0 .start
    { clockRead s with txbuf := encProState st, rxbuf := zeros 19, dl := outerDeadline s.now wait })

/-- A: the data bit, 0 from cycle 56 on (rules R181, R187). -/
def sendProA (s : State) : Out :=
  if s.cyc.toNat ≤ 55 then
    orRangeFault (getBit s.txbuf s.cyc.toNat) fun v => .next (goto .b s.cyc .start (pinWrite .dataOut v s))
  else .next (goto .b s.cyc .start (pinWrite .dataOut false s))

/-- B: the clock goes high. -/
def sendProB (s : State) : Out := .next (goto .c s.cyc (.first .read) (pinWrite .ctlOut true s))

/-- C: wait for the responder's clock to go high. -/
def sendProC (pos : WaitPos) (s : State) : Out :=
  waitStep .ctlIn true s.dl pos .first (fun s => .next (goto .d s.cyc .start s))
    (fun s => beginAbort (proFirstWait s) s) s

/-- D: sample, then the desync tests on the sample, then store it (rules R186, R187, R224). -/
def sendProD (s : State) : Out :=
  if 1 ≤ s.cyc.toNat ∧ s.cyc.toNat ≤ 55 ∧ s.cfg.proStrict = true ∧ s.wDataIn = false then
    beginAbort .desync (pinRead .dataIn s)
  else if s.cyc.toNat = 56 ∧ s.wDataIn = true then beginAbort .desync (pinRead .dataIn s)
  else if 57 ≤ s.cyc.toNat then
    orRangeFault (setBit s.rxbuf (s.cyc.toNat - 57) s.wDataIn) fun b =>
      .next (goto .e s.cyc .start { pinRead .dataIn s with rxbuf := b })
  else .next (goto .e s.cyc .start (pinRead .dataIn s))

/-- E: the clock goes low. -/
def sendProE (s : State) : Out := .next (goto .f s.cyc (.first .read) (pinWrite .ctlOut false s))

/-- F: wait for the responder's clock to go low; after cycle 0, the frame deadline. -/
def sendProF (pos : WaitPos) (s : State) : Out :=
  waitStep .ctlIn false s.dl pos .first
    (fun s => if s.cyc = 0 then .next (goto .f s.cyc .deadline s) else proNextCycle .start s)
    (fun s => beginAbort .peerUnresponsive s) s

/-- DONE: data line idle, decode, return 0 (rule R188). -/
def sendProDone (s : State) : Out :=
  orRangeFault (decProCfg s.cfg.ledCode s.rxbuf) fun r =>
    .next (finishFrame (.proConfig r) (setOk true (pinWrite .dataOut false s)))

/-- One step of SEND.PRO (rule R181). -/
def sendProStep (st : JoystickState) (wait : Word) (s : State) : Out :=
  orAbort s fun s =>
    match s.phase, s.sub with
    | .idle, .start => sendProIdle st wait s
    | .a, .start => sendProA s
    | .b, .start => sendProB s
    | .c, .first pos => sendProC pos s
    | .d, .start => sendProD s
    | .e, .start => sendProE s
    | .f, .first pos => sendProF pos s
    | .f, .deadline => proFrameDeadline .start s
    | .done, .start => sendProDone s
    | _, _ => .fault .lostPosition

/-! ## POLL.PRO -/

/-- IDLE: encode, clear `RXBUF`, the outer deadline (rule R182). -/
def pollProIdle (r : ProConfig) (wait : Word) (s : State) : Out :=
  .next (goto .a 0 (.first .read)
    { clockRead s with txbuf := encProCfg s.cfg.ledCode r, rxbuf := zeros 56, dl := outerDeadline s.now wait })

/-- A: wait for the initiator's clock to go high. -/
def pollProA (pos : WaitPos) (s : State) : Out :=
  waitStep .ctlIn true s.dl pos .first (fun s => .next (goto .b s.cyc .start s))
    (fun s => beginAbort (proFirstWait s) s) s

/-- B: sample; the samples of cycles 0 to 55 are kept (rules R182, R187). -/
def pollProB (s : State) : Out :=
  if s.cyc.toNat ≤ 55 then
    orRangeFault (setBit s.rxbuf s.cyc.toNat s.wDataIn) fun b =>
      .next (goto .c s.cyc .start { pinRead .dataIn s with rxbuf := b })
  else .next (goto .c s.cyc .start (pinRead .dataIn s))

/-- C: the data level: 0 in cycle 0, the attention level in cycles 1 to 55, the marker 0 in cycle 56, then the config bits
(rule R89). -/
def pollProC (s : State) : Out :=
  if 57 ≤ s.cyc.toNat then
    orRangeFault (getBit s.txbuf (s.cyc.toNat - 57)) fun v => .next (goto .d s.cyc .start (pinWrite .dataOut v s))
  else .next (goto .d s.cyc .start (pinWrite .dataOut (decide (1 ≤ s.cyc.toNat ∧ s.cyc.toNat ≤ 55)) s))

/-- D: the clock goes high. -/
def pollProD (s : State) : Out := .next (goto .e s.cyc (.first .read) (pinWrite .ctlOut true s))

/-- E: wait for the initiator's clock to go low. -/
def pollProE (pos : WaitPos) (s : State) : Out :=
  waitStep .ctlIn false s.dl pos .first (fun s => .next (goto .f s.cyc .start s))
    (fun s => beginAbort .peerUnresponsive s) s

/-- F: the clock goes low; after cycle 0, the frame deadline. -/
def pollProF (s : State) : Out :=
  if s.cyc = 0 then .next (goto .f s.cyc .deadline (pinWrite .ctlOut false s))
  else proNextCycle (.first .read) (pinWrite .ctlOut false s)

/-- DONE: data line idle, decode, return 0 (rule R188). -/
def pollProDone (s : State) : Out :=
  orRangeFault (decProState s.cfg s.rxbuf) fun r =>
    .next (finishFrame (.state r) (setOk true (pinWrite .dataOut false s)))

/-- One step of POLL.PRO (rule R182). -/
def pollProStep (r : ProConfig) (wait : Word) (s : State) : Out :=
  orAbort s fun s =>
    match s.phase, s.sub with
    | .idle, .start => pollProIdle r wait s
    | .a, .first pos => pollProA pos s
    | .b, .start => pollProB s
    | .c, .start => pollProC s
    | .d, .start => pollProD s
    | .e, .first pos => pollProE pos s
    | .f, .start => pollProF s
    | .f, .deadline => proFrameDeadline (.first .read) s
    | .done, .start => pollProDone s
    | _, _ => .fault .lostPosition

/-! ## PEEK.PRO -/

/-- One step of PEEK.PRO: CTL_IN, then DATA_IN; true if both read 0 (rule R184). -/
def peekProStep (s : State) : Out :=
  match s.sub with
  | .start => .next { pinRead .ctlIn s with sub := .peeked s.wCtlIn }
  | .peeked ctl => .next (finish (.flag (!ctl && !s.wDataIn)) (pinRead .dataIn s))
  | _ => .fault .lostPosition

/-! ## The operations -/

/-- POLL.PRO (rule R182). -/
def execPollPro (inConfig : ProConfig) (waitMicros : Word) (s : State) : Out :=
  running (planeRefusal .pro .joystickClient s) (.pollPro inConfig waitMicros) s (pollProStep inConfig waitMicros)

/-- SEND.PRO (rule R181). -/
def execSendPro (inState : JoystickState) (waitMicros : Word) (s : State) : Out :=
  running (planeRefusal .pro .throttleClient s) (.sendPro inState waitMicros) s (sendProStep inState waitMicros)

/-- PEEK.PRO (rule R184). -/
def execPeekPro (s : State) : Out := running (planeRefusal .pro .throttleClient s) .peekPro s peekProStep

end Sys2Proof.Machine
end

