-- ==== Sys2Proof/Machine/Pulse.lean ====
section
/-! DEFINITION. The PulseWaiter (spec/44_pulsewaiter.md R170 to R179): one step of `WaitForPulse` in its two variants,
the two operations, and the falling-edge callback EDGECB. -/

namespace Sys2Proof.Machine

/-- The trigger action (rule R172): `REQ <- !REQ ; pin_write(CTL_OUT, REQ)`, or none. -/
def runTrigger (t : Trigger) (s : State) : State :=
  match t with
  | .none => s
  | .toggleReq => pinWrite .ctlOut (!s.req) { s with req := !s.req }

/-- Where `WaitForPulse` begins: the interrupt-counted variant captures its baseline before the trigger (R172, R174). -/
def pulseEntry (w : Waiter) : Sub :=
  match w with
  | .polling => .trigger
  | .interruptCounted => .snapshot

/-- Where `WaitForPulse` goes on after the trigger. -/
def afterTrigger (w : Waiter) : Sub :=
  match w with
  | .polling => .first .read
  | .interruptCounted => .count .count

/-- One step of the counter poll loop (rule R174): the counter is read before the deadline is tested, and CTL_IN is
read only on timeout (rule R175). -/
def countStep (dl : Word) (pos : CountPos) (result : PulseResult → State → Out) (s : State) : Out :=
  match pos with
  | .count =>
    if s.edgeCnt - s.baseCnt = 0 then .next { counterRead s with sub := .count .test }
    else if s.edgeCnt - s.baseCnt = 1 then result .finished (counterRead s)
    else result .tooMany (counterRead s)
  | .test =>
    if expiredAt dl s.now then .next { clockRead s with sub := .count .pin }
    else .next { clockRead s with sub := .count (if s.cfg.busy then .count else .sleep) }
  | .pin => result (timeoutResult (wireLevel .ctlIn s)) (pinRead .ctlIn s)
  | .sleep => .next { delayUs s.cfg.pollSleep s with sub := .count .count }

/-- One step of `WaitForPulse(dl, trigger)` (rules R171 to R175). `done` says what follows the result, once it stands in
`PW_RESULT`. -/
def pulseStep (w : Waiter) (dl : Word) (t : Trigger) (done : PulseResult → State → Out) (s : State) : Out :=
  let result := fun r s => done r (setPulse r s)
  match s.sub, w with
  | .snapshot, .interruptCounted => .next { counterRead s with baseCnt := s.edgeCnt, sub := .trigger }
  | .trigger, _ => .next { runTrigger t s with sub := afterTrigger w }
  | .first pos, .polling =>
    waitStep .ctlIn false dl pos .first (fun s => .next { s with sub := .second .read }) (result .notStarted) s
  | .second pos, .polling => waitStep .ctlIn true dl pos .second (result .finished) (result .started) s
  | .count pos, .interruptCounted => countStep dl pos result s
  | _, _ => .fault .lostPosition

/-- One step of a WAITPULSE operation of its own. -/
def waitPulseStep (w : Waiter) (dl : Word) (t : Trigger) (s : State) : Out :=
  let done := fun r s => Host.Outcome.next (finish (.pulse r) s)
  match s.sub with
  | .start => pulseStep w dl t done { s with sub := pulseEntry w }
  | _ => pulseStep w dl t done s

/-- WAITPULSE.POLL (rule R173). -/
def execWaitPulsePoll (dl : Word) (t : Trigger) (s : State) : Out :=
  running (waiterRefusal .polling s) (.waitPulsePoll dl t) s (waitPulseStep .polling dl t)

/-- WAITPULSE.IRQ (rule R174). -/
def execWaitPulseIrq (dl : Word) (t : Trigger) (s : State) : Out :=
  running (waiterRefusal .interruptCounted s) (.waitPulseIrq dl t) s (waitPulseStep .interruptCounted dl t)

/-- EDGECB (rule R177): one pending edge is counted, whatever else runs; with none pending it is not enabled. -/
def execEdgeCb (s : State) : Out :=
  .next
    (if 0 < s.edgePending then { s with edgePending := s.edgePending - 1, edgeCnt := s.edgeCnt + 1 } else s)

end Sys2Proof.Machine
end

