-- ==== Sys2Proof/Machine/EngineStd.lean ====
section
/-! DEFINITION. The Std frame engine (spec/46_engine_std.md R200 to R209): POLL.STD of the JoystickClient, SEND.STD of the
ThrottleClient, and PEEK.STD. One primitive call a step; the labels are those of the pseudocode of R201 and R202. -/

namespace Sys2Proof.Machine

/-! ## POLL.STD -/

/-- P0: encode, clear `RXBUF`, `REQ <- 0`, the outer deadline (rule R201). -/
def pollStdP0 (r : StdConfig) (wait : Word) (s : State) : Out :=
  .next (goto .p1 0 (.first .read)
    { clockRead s with txbuf := encStdCfg r, rxbuf := zeros 64, req := false, dl := outerDeadline s.now wait })

/-- P1: wait for the pulse line to be idle. -/
def pollStdP1 (pos : WaitPos) (s : State) : Out :=
  waitStep .ctlIn true s.dl pos .first (fun s => .next (goto .p2 0 (pulseEntry s.cfg.waiter) s))
    (fun s => beginAbort .noPeer s) s

/-- P2, once the first `WaitForPulse` has its result: NoPeer, PeerUnresponsive, or the handshake is made (R201, R222,
R223). -/
def pollStdP2Done (r : PulseResult) (s : State) : Out :=
  match r with
  | .finished => .next { s with sub := .deadline }
  | .notStarted => beginAbort .noPeer s
  | .started => beginAbort .peerUnresponsive s
  | .tooMany => beginAbort .peerUnresponsive s

/-- P2, the frame deadline (rule R207). -/
def pollStdDeadline (s : State) : Out :=
  .next (goto .p3 0 .start { clockRead s with dl := deadlineAt s.now s.cfg.stdFrameTimeout })

/-- P3 and P4: sample state bit `CYC`, then the next `WaitForPulse` (rules R201, R211). -/
def pollStdSample (s : State) : Out :=
  orRangeFault (setBit s.rxbuf s.cyc.toNat s.wDataIn) fun b =>
    .next { pinRead .dataIn s with rxbuf := b, sub := pulseEntry s.cfg.waiter }

/-- P3, once a `WaitForPulse` has its result: the next bit, the last of them at P4 (rule R201). -/
def pollStdP3Done (r : PulseResult) (s : State) : Out :=
  match r with
  | .finished =>
    if s.cyc.toNat < 62 then .next (goto .p3 (s.cyc + 1) .start s) else .next (goto .p4 63 .start s)
  | _ => beginAbort .peerUnresponsive s

/-- P4, once the longer pulse has its result. -/
def pollStdP4Done (r : PulseResult) (s : State) : Out :=
  match r with
  | .finished => .next (goto .p5 s.cyc (.first .read) s)
  | _ => beginAbort .peerUnresponsive s

/-- P5: wait for the longer pulse to end. -/
def pollStdP5 (pos : WaitPos) (s : State) : Out :=
  waitStep .ctlIn true s.dl pos .first (fun s => .next (goto .p6 0 .start s))
    (fun s => beginAbort .peerUnresponsive s) s

/-- P6: one config bit (rule R201): request line low, the bit, hold, request line high, hold. -/
def pollStdP6 (n : Nat) (s : State) : Out :=
  match n with
  | 0 => .next { pinWrite .ctlOut false s with req := false, sub := .seq 1 }
  | 1 =>
    orRangeFault (getBit s.txbuf s.cyc.toNat) fun v => .next { pinWrite .dataOut v s with sub := .seq 2 }
  | 2 => .next { delayUs s.cfg.stdCfgLow s with sub := .seq 3 }
  | 3 => .next { pinWrite .ctlOut true s with req := true, sub := .seq 4 }
  | 4 =>
    if s.cyc.toNat < 7 then .next (goto .p6 (s.cyc + 1) .start (delayUs s.cfg.stdCfgHigh s))
    else .next (goto .p7 s.cyc .start (delayUs s.cfg.stdCfgHigh s))
  | _ => .fault .lostPosition

/-- The end of POLL.STD: the record and 0, or ChecksumFailure, which does not go through `abort` (R209, R225). -/
def pollStdEnds (r : Option JoystickState) (s : State) : State :=
  match r with
  | some rec => finishFrame (.state rec) (setOk true s)
  | none =>
    finishCode (failureCode .checksumFailure s.cfg)
      { setOk false (drawRecord s).2 with outState := (drawRecord s).1, failure := some .checksumFailure }

/-- P7: both lines idle, decode, return (rules R201, R209). -/
def pollStdP7 (n : Nat) (s : State) : Out :=
  match n with
  | 0 => .next { pinWrite .ctlOut false s with req := false, sub := .seq 1 }
  | 1 => orRangeFault (decStdState s.cfg s.rxbuf) fun r => .next (pollStdEnds r (pinWrite .dataOut false s))
  | _ => .fault .lostPosition

/-- One step of POLL.STD (rule R201). -/
def pollStdStep (r : StdConfig) (wait : Word) (s : State) : Out :=
  orAbort s fun s =>
    match s.phase, s.sub with
    | .idle, .start => pollStdP0 r wait s
    | .p1, .first pos => pollStdP1 pos s
    | .p2, .deadline => pollStdDeadline s
    | .p2, _ => pulseStep s.cfg.waiter s.dl .toggleReq pollStdP2Done s
    | .p3, .start => pollStdSample s
    | .p3, _ => pulseStep s.cfg.waiter s.dl .toggleReq pollStdP3Done s
    | .p4, .start => pollStdSample s
    | .p4, _ => pulseStep s.cfg.waiter s.dl .toggleReq pollStdP4Done s
    | .p5, .first pos => pollStdP5 pos s
    | .p6, .start => pollStdP6 0 s
    | .p6, .seq n => pollStdP6 n s
    | .p7, .start => pollStdP7 0 s
    | .p7, .seq n => pollStdP7 n s
    | _, _ => .fault .lostPosition

/-! ## SEND.STD -/

/-- S0: encode with checksum, clear `RXBUF`, the outer deadline (rule R202). -/
def sendStdS0 (st : JoystickState) (wait : Word) (s : State) : Out :=
  .next (goto .s1 0 (.first .read)
    { clockRead s with txbuf := encStdState st, rxbuf := zeros 8, dl := outerDeadline s.now wait })

/-- S1: wait for the request. -/
def sendStdS1 (pos : WaitPos) (s : State) : Out :=
  waitStep .ctlIn true s.dl pos .first (fun s => .next { s with sub := .deadline })
    (fun s => beginAbort .noPeer s) s

/-- S1, the frame deadline, and `REQ <- 1` (rule R207). -/
def sendStdDeadline (s : State) : Out :=
  .next (goto .s2 0 (.seq 0)
    { clockRead s with dl := deadlineAt s.now s.cfg.stdFrameTimeout, req := true })

/-- A wait for the request line at the level `REQ` (the prompts of S3 and S4); the slot follows. -/
def sendStdPrompt (pos : WaitPos) (s : State) : Out :=
  waitStep .ctlIn s.req s.dl pos .first (fun s => .next { s with sub := .seq 0 })
    (fun s => beginAbort .peerUnresponsive s) s

/-- S2, S3: the data level of the slot is state bit `CYC` (rule R202). -/
def sendStdBit (s : State) : Out :=
  orRangeFault (getBit s.txbuf s.cyc.toNat) fun v => .next { pinWrite .dataOut v s with sub := .seq 1 }

/-- `Pulse(n)` (rule R206): the pulse line low, hold, back to idle; `after` follows. -/
def pulseOut (n : Word) (place : Nat) (after : State → Out) (s : State) : Out :=
  match place with
  | 1 => .next { pinWrite .ctlOut false s with sub := .seq 2 }
  | 2 => .next { delayUs n s with sub := .seq 3 }
  | 3 => after (pinWrite .ctlOut true s)
  | _ => .fault .lostPosition

/-- After the pulse of a state bit: the prompt of the next bit, or of the config phase (S3, S4), with
`REQ <- !REQ`. -/
def sendStdNextBit (s : State) : Out :=
  if s.cyc.toNat < 63 then .next (goto .s3 (s.cyc + 1) (.first .read) { s with req := !s.req })
  else .next (goto .s4 s.cyc (.first .read) { s with req := !s.req })

/-- S5: for each config bit, the request line low, then high, then the sample (rule R202). -/
def sendStdS5 (sub : Sub) (s : State) : Out :=
  match sub with
  | .first pos =>
    waitStep .ctlIn false s.dl pos .first (fun s => .next { s with sub := .second .read })
      (fun s => beginAbort .peerUnresponsive s) s
  | .second pos =>
    waitStep .ctlIn true s.dl pos .second (fun s => .next { s with sub := .start })
      (fun s => beginAbort .peerUnresponsive s) s
  | .start =>
    orRangeFault (setBit s.rxbuf s.cyc.toNat s.wDataIn) fun b =>
      if s.cyc.toNat < 7 then .next (goto .s5 (s.cyc + 1) (.first .read) { pinRead .dataIn s with rxbuf := b })
      else .next (goto .s6 s.cyc (.first .read) { pinRead .dataIn s with rxbuf := b })
  | _ => .fault .lostPosition

/-- S6: wait for the request line back at idle. -/
def sendStdS6 (pos : WaitPos) (s : State) : Out :=
  waitStep .ctlIn false s.dl pos .first (fun s => .next (goto .s7 s.cyc .start s))
    (fun s => beginAbort .peerUnresponsive s) s

/-- S7: decode and return 0; no primitive call (rule R202). -/
def sendStdS7 (s : State) : Out :=
  orRangeFault (decStdCfg s.rxbuf) fun r => .next (finishFrame (.stdConfig r) (setOk true s))

/-- One step of SEND.STD (rule R202). -/
def sendStdStep (st : JoystickState) (wait : Word) (s : State) : Out :=
  orAbort s fun s =>
    match s.phase, s.sub with
    | .idle, .start => sendStdS0 st wait s
    | .s1, .first pos => sendStdS1 pos s
    | .s1, .deadline => sendStdDeadline s
    | .s2, .seq 0 => sendStdBit s
    | .s2, .seq n => pulseOut s.cfg.stdConfirmPulse n sendStdNextBit s
    | .s3, .first pos => sendStdPrompt pos s
    | .s3, .seq 0 => sendStdBit s
    | .s3, .seq n => pulseOut s.cfg.stdBitPulse n sendStdNextBit s
    | .s4, .first pos => sendStdPrompt pos s
    | .s4, .seq 0 => .next { pinWrite .dataOut false s with sub := .seq 1 }
    | .s4, .seq n => pulseOut s.cfg.stdConfigPulse n (fun s => .next (goto .s5 0 (.first .read) s)) s
    | .s5, sub => sendStdS5 sub s
    | .s6, .first pos => sendStdS6 pos s
    | .s7, .start => sendStdS7 s
    | _, _ => .fault .lostPosition

/-! ## The operations -/

/-- POLL.STD (rule R201). -/
def execPollStd (inConfig : StdConfig) (waitMicros : Word) (s : State) : Out :=
  running (planeRefusal .std .joystickClient s) (.pollStd inConfig waitMicros) s (pollStdStep inConfig waitMicros)

/-- SEND.STD (rule R202). -/
def execSendStd (inState : JoystickState) (waitMicros : Word) (s : State) : Out :=
  running (planeRefusal .std .throttleClient s) (.sendStd inState waitMicros) s (sendStdStep inState waitMicros)

/-- PEEK.STD (rule R205): one read; true if the request line is high. -/
def execPeekStd (s : State) : Out :=
  oneStep (planeRefusal .std .throttleClient s) .peekStd s fun s =>
    .next (finish (.flag s.wCtlIn) (pinRead .ctlIn s))

end Sys2Proof.Machine
end

