-- ==== Sys2Proof/Machine/Setup.lean ====
section
/-! DEFINITION. `Setup()` of the four instances (spec/45_engine_pro.md R183, spec/46_engine_std.md R203, R204): one
primitive call a step, the latch of an output before its direction. -/

namespace Sys2Proof.Machine

/-- The end of a Setup: `REQ <- 0` in the Std variant only, `SETUP_DONE`, `(IDLE, 0)`. -/
def setupEnds (v : Variant) (s : State) : State :=
  finish .nothing { s with setupDone := true, req := (match v with | .std => false | .pro => s.req) }

/-- One step of a Setup of variant `v` that drives CTL_OUT to `level` and, if `irq`, zeroes the edge counter and
attaches the callback. A second Setup re-zeroes the counter and attaches nothing (rule R203). -/
def setupStep (v : Variant) (level irq : Bool) (s : State) : Out :=
  match s.sub with
  | .start => .next { pinWrite .ctlOut level s with sub := .seq 1 }
  | .seq 1 => .next { pinMode (.out .ctlOut) .output s with sub := .seq 2 }
  | .seq 2 => .next { pinWrite .dataOut false s with sub := .seq 3 }
  | .seq 3 => .next { pinMode (.out .dataOut) .output s with sub := .seq 4 }
  | .seq 4 => .next { pinMode (.inp .ctlIn) .input s with sub := .seq 5 }
  | .seq 5 =>
    if irq then .next { pinMode (.inp .dataIn) .input s with sub := .seq 6 }
    else .next (setupEnds v (pinMode (.inp .dataIn) .input s))
  | .seq 6 =>
    if !irq then .fault .lostPosition
    else if s.attached then .next (setupEnds v { s with edgeCnt := 0, edgePending := 0 })
    else .next { s with edgeCnt := 0, edgePending := 0, sub := .seq 7 }
  | .seq 7 => if irq then .next (setupEnds v (attachFalling s)) else .fault .lostPosition
  | _ => .fault .lostPosition

/-- SETUP.PRO.JC (rule R183). -/
def execSetupProJc (s : State) : Out :=
  running (setupRefusal .pro .joystickClient s) .setupProJc s (setupStep .pro false false)

/-- SETUP.PRO.TC (rule R183). -/
def execSetupProTc (s : State) : Out :=
  running (setupRefusal .pro .throttleClient s) .setupProTc s (setupStep .pro false false)

/-- SETUP.STD.JC (rule R203): with the interrupt-counted waiter it also arms the counter. -/
def execSetupStdJc (s : State) : Out :=
  running (setupRefusal .std .joystickClient s) .setupStdJc s
    (setupStep .std false (decide (s.cfg.waiter = .interruptCounted)))

/-- SETUP.STD.TC (rule R204): the pulse line idles high. -/
def execSetupStdTc (s : State) : Out :=
  running (setupRefusal .std .throttleClient s) .setupStdTc s (setupStep .std true false)

end Sys2Proof.Machine
end

