-- ==== Sys2Proof/Machine/Wire.lean ====
section
/-! DEFINITION. The four wire-format rows of the table (spec/30_encoding.md R80, R81, R86, R90, R96): a whole wire word,
laid in a BitBuffer with word bit `k` at buffer bit `k` (spec/20_memory.md R60), stands for the record its fields name.
They are no operations of the block; the model gives a word the reading its format gives it (log entry 3). -/

namespace Sys2Proof.Machine

/-- WIRE.PRO.STATE (rule R81): every 56-bit pattern is a legal frame. -/
def execWireProState (w : BitVec 56) (s : State) : Out :=
  oneStep none (.wireProState w) s fun s =>
    orRangeFault (decProState s.cfg (bufferOfWord 56 w.toNat)) fun r => .next (finishDecode (.state r) true s)

/-- WIRE.PRO.CFG (rule R86). -/
def execWireProCfg (w : BitVec 19) (s : State) : Out :=
  oneStep none (.wireProCfg w) s fun s =>
    orRangeFault (decProCfg s.cfg.ledCode (bufferOfWord 19 w.toNat)) fun r =>
      .next (finishDecode (.proConfig r) true s)

/-- WIRE.STD.STATE (rules R90, R95): valid if and only if byte 7 is the XOR of bytes 0 to 6. -/
def execWireStdState (w : BitVec 64) (s : State) : Out :=
  oneStep none (.wireStdState w) s fun s =>
    orRangeFault (decStdState s.cfg (bufferOfWord 64 w.toNat)) fun r => .next (finishStdDecode r s)

/-- WIRE.STD.CFG (rule R96): all 256 values are legal. -/
def execWireStdCfg (w : BitVec 8) (s : State) : Out :=
  oneStep none (.wireStdCfg w) s fun s =>
    orRangeFault (decStdCfg (bufferOfWord 8 w.toNat)) fun r => .next (finishDecode (.stdConfig r) true s)

end Sys2Proof.Machine
end

