-- ==== Sys2Proof/Machine/Dispatch.lean ====
section
/-! DEFINITION. One arm per constructor of Instr: the meaning of each row of spec/opcode_table.json. -/

namespace Sys2Proof.Machine

def exec (i : Instr) (s : State) : Host.Outcome State Fault Refusal :=
  match i with
  | .bbZero n => Sys2Proof.Machine.execBbZero n s
  | .bbGetBit buf k => Sys2Proof.Machine.execBbGetBit buf k s
  | .bbSetBit buf k v => Sys2Proof.Machine.execBbSetBit buf k v s
  | .bbGetField buf start width => Sys2Proof.Machine.execBbGetField buf start width s
  | .bbSetField buf start width v => Sys2Proof.Machine.execBbSetField buf start width v s
  | .bbGetByte buf k => Sys2Proof.Machine.execBbGetByte buf k s
  | .bbSetByte buf k v => Sys2Proof.Machine.execBbSetByte buf k v s
  | .encProState rec => Sys2Proof.Machine.execEncProState rec s
  | .decProState buf => Sys2Proof.Machine.execDecProState buf s
  | .encProCfg rec => Sys2Proof.Machine.execEncProCfg rec s
  | .decProCfg buf => Sys2Proof.Machine.execDecProCfg buf s
  | .encStdState rec => Sys2Proof.Machine.execEncStdState rec s
  | .decStdState buf => Sys2Proof.Machine.execDecStdState buf s
  | .encStdCfg rec => Sys2Proof.Machine.execEncStdCfg rec s
  | .decStdCfg buf => Sys2Proof.Machine.execDecStdCfg buf s
  | .checksum buf => Sys2Proof.Machine.execChecksum buf s
  | .deadline us => Sys2Proof.Machine.execDeadline us s
  | .expired dl => Sys2Proof.Machine.execExpired dl s
  | .waitPin p v dl => Sys2Proof.Machine.execWaitPin p v dl s
  | .waitPulsePoll dl trig => Sys2Proof.Machine.execWaitPulsePoll dl trig s
  | .waitPulseIrq dl trig => Sys2Proof.Machine.execWaitPulseIrq dl trig s
  | .edgeCb => Sys2Proof.Machine.execEdgeCb s
  | .setupProJc => Sys2Proof.Machine.execSetupProJc s
  | .setupProTc => Sys2Proof.Machine.execSetupProTc s
  | .pollPro inConfig waitMicros => Sys2Proof.Machine.execPollPro inConfig waitMicros s
  | .sendPro inState waitMicros => Sys2Proof.Machine.execSendPro inState waitMicros s
  | .peekPro => Sys2Proof.Machine.execPeekPro s
  | .setupStdJc => Sys2Proof.Machine.execSetupStdJc s
  | .setupStdTc => Sys2Proof.Machine.execSetupStdTc s
  | .pollStd inConfig waitMicros => Sys2Proof.Machine.execPollStd inConfig waitMicros s
  | .sendStd inState waitMicros => Sys2Proof.Machine.execSendStd inState waitMicros s
  | .peekStd => Sys2Proof.Machine.execPeekStd s
  | .wireProState w => Sys2Proof.Machine.execWireProState w s
  | .wireProCfg w => Sys2Proof.Machine.execWireProCfg w s
  | .wireStdState w => Sys2Proof.Machine.execWireStdState w s
  | .wireStdCfg w => Sys2Proof.Machine.execWireStdCfg w s

end Sys2Proof.Machine
end

