-- ==== Sys2Proof/Machine/Turn.lean ====
section
/-! DEFINITION. One turn of one agent (spec/00_scope.md R13): which event comes next, how HOST's call is fetched and
decoded, and how ENGINE's turn runs the operation in progress. Step calls it. -/

namespace Sys2Proof.Machine

/-- The next event: the oldest queued one, else a free one (U8, U11). -/
def nextEvent (s : State) : Event :=
  match s.inputs with
  | e :: _ => e
  | [] => Config.freeEvent s.free

/-- The state once the next event has been taken. -/
def takeEvent (s : State) : State :=
  match s.inputs with
  | _ :: rest => { s with inputs := rest }
  | [] => { s with free := s.free + 1 }

/-- HOST's call: run what it selects, unless nothing is selected, HOST may not issue it (EDGECB), or an operation is
running (rules R102, R177, R265). -/
def call (code : Code) (s : State) : Out :=
  match decode code with
  | .error e => .next (turnAway (.undecodable e) s)
  | .ok .edgeCb => .next (turnAway .callbackOnly s)
  | .ok i =>
    match s.cur with
    | some _ => .next (turnAway .busy s)
    | none => exec i s

/-- ENGINE's turn: the next step of the running operation; with none running it does nothing (rule R261). -/
def engineTurn (s : State) : Out :=
  match s.cur with
  | some i => exec i s
  | none => .next s

/-- One turn. -/
def turn (e : Event) (s : State) : Out :=
  match e with
  | .engine => engineTurn s
  | .edgecb => exec .edgeCb s
  | .peerCtl v => .next (peerDrivesCtl v s)
  | .peerData v => .next (peerDrivesData v s)
  | .clock us => .next (clockAdvances us s)
  | .hostArgs a => .next (hostSets a s)
  | .issue code => call (.op code s.args) s
  | .construct c => .next (hostConstructs c s)
  | .wire nbits bits => call (.wire nbits bits) s

/-- A run of turns, stopping at the first that gives no next state. -/
def turns : List Event → State → Out
  | [], s => .next s
  | e :: es, s =>
    match turn e s with
    | .next t => turns es t
    | .fault r => .fault r
    | .refused r => .refused r

/-- `n` steps of one instruction with nothing between them. -/
def execSteps (i : Instr) : Nat → State → Out
  | 0, s => .next s
  | n + 1, s =>
    match exec i s with
    | .next t => execSteps i n t
    | .fault r => .fault r
    | .refused r => .refused r

end Sys2Proof.Machine
end

