-- ==== Sys2Proof/Machine/Link.lean ====
section
/-! DEFINITION. Two instances on one four-wire loopback (spec/10_state.md R34, spec/20_memory.md R70): each engine's
CTL_OUT is the other's CTL_IN, its DATA_OUT the other's DATA_IN. -/

namespace Sys2Proof.Machine

/-- The two instances of a loopback. -/
structure Link where
  a : State
  b : State
deriving DecidableEq, Repr

/-- A move of one side. A side's input wires are driven by the other side alone. -/
inductive LinkEvent where
  | onA (e : Event)
  | onB (e : Event)
deriving DecidableEq, Repr, Inhabited

/-- The wires carry the levels of `src` to the inputs of `dst`; a pin that is no output drives nothing (rule R51). -/
def connect (src dst : State) : State :=
  let dst :=
    match wireCtlOut src with
    | some v => peerDrivesCtl v dst
    | none => dst
  match wireDataOut src with
  | some v => peerDrivesData v dst
  | none => dst

/-- An event that a side of a loopback may take: any but PEER's, whose part the other side plays. -/
def isOwnEvent (e : Event) : Bool :=
  match e with
  | .peerCtl _ => false
  | .peerData _ => false
  | _ => true

/-- One move of a loopback: the side's turn, then the wires. Nothing if the event is PEER's or the turn stops. -/
def linkTurn (e : LinkEvent) (l : Link) : Option Link :=
  match e with
  | .onA e =>
    if isOwnEvent e then
      match turn e l.a with
      | .next t => some ⟨t, connect t l.b⟩
      | _ => none
    else none
  | .onB e =>
    if isOwnEvent e then
      match turn e l.b with
      | .next t => some ⟨connect t l.a, t⟩
      | _ => none
    else none

/-- A run of a loopback. -/
def linkTurns : List LinkEvent → Link → Option Link
  | [], l => some l
  | e :: es, l =>
    match linkTurn e l with
    | some l' => linkTurns es l'
    | none => none

end Sys2Proof.Machine
end

