-- ==== Sys2Proof/Machine/Step.lean ====
section
/-! DEFINITION. The step: the next event is taken and its agent has its turn (Turn); and how an instruction is placed
where the next step takes it. -/

namespace Sys2Proof.Machine

def step (s : State) : Host.Outcome State Fault Refusal := turn (nextEvent s) (takeEvent s)

def State.withFetchWord (s : State) (nbits w : Nat) : State :=
  { s with inputs := tableEvent nbits w :: s.inputs }

end Sys2Proof.Machine
end

