-- ==== Sys2Proof/Safety.lean ====
section
/-! DEFINITION. What a good state is: `State.inv`, the invariant that reset has and every step keeps (spec/10_state.md
R29, R30, R35; spec/70_reset_and_hazards.md R264), what a safe step is (spec/20_memory.md R63), what ends a run and what is
observed of it (R279), and the assumptions on schedules that termination rests on (R274). -/

namespace Sys2Proof.Machine

/-- Both BitBuffers have their form and the width of this variant and role (rule R29). -/
def buffersOk (s : State) : Bool :=
  s.txbuf.wf && s.rxbuf.wf && decide (s.txbuf.N = txWidth s.cfg) && decide (s.rxbuf.N = rxWidth s.cfg)

/-- Both outputs are at idle (rule R35). -/
def outputsIdle (s : State) : Bool := decide (s.outCtl = idleCtl s.cfg) && !s.outData

/-- The pin directions are those `Setup` gives (rules R183, R203, R204). -/
def dirsSet (s : State) : Bool :=
  decide (s.dirCtlOut = .output) && decide (s.dirDataOut = .output) && decide (s.dirCtlIn = .input) &&
    decide (s.dirDataIn = .input)

/-- The outputs outside data-plane operations, once Setup is done: DATA_OUT at idle; CTL_OUT too, but in a Std
JoystickClient, whose request line a WAITPULSE of HOST's own may have toggled (rules R172, R264). -/
def restsIdle (s : State) : Bool :=
  !s.setupDone ||
    (dirsSet s && !s.outData &&
      (isInstance s.cfg .std .joystickClient || decide (s.outCtl = idleCtl s.cfg)))

/-- `(IDLE, 0)` (rule R30). -/
def atIdle (s : State) : Bool := decide (s.phase = .idle) && decide (s.cyc = 0)

/-- The places of a `WaitForPulse` with this waiter. -/
def pulsePlace (w : Waiter) (sub : Sub) : Bool :=
  match sub, w with
  | .snapshot, .interruptCounted => true
  | .trigger, _ => true
  | .first _, .polling => true
  | .second _, .polling => true
  | .count _, .interruptCounted => true
  | _, _ => false

/-- A running SEND.PRO is at one of its places, with the clock line as the pseudocode leaves it there (rule R181). -/
def sendProPlace (s : State) : Bool :=
  match s.phase, s.sub with
  | .idle, _ => false
  | _, .abortCtl _ => true
  | _, .abortData _ => !s.outCtl
  | .a, .start => !s.outCtl
  | .b, .start => !s.outCtl
  | .c, .first _ => s.outCtl
  | .d, .start => s.outCtl
  | .e, .start => s.outCtl
  | .f, .first _ => !s.outCtl
  | .f, .deadline => !s.outCtl && decide (s.cyc = 0)
  | .done, .start => !s.outCtl && decide (s.cyc = 75)
  | _, _ => false

/-- A running POLL.PRO is at one of its places (rule R182). -/
def pollProPlace (s : State) : Bool :=
  match s.phase, s.sub with
  | .idle, _ => false
  | _, .abortCtl _ => true
  | _, .abortData _ => !s.outCtl
  | .a, .first _ => !s.outCtl
  | .b, .start => !s.outCtl
  | .c, .start => !s.outCtl
  | .d, .start => !s.outCtl
  | .e, .first _ => s.outCtl
  | .f, .start => s.outCtl
  | .f, .deadline => !s.outCtl && decide (s.cyc = 0)
  | .done, .start => !s.outCtl && decide (s.cyc = 75)
  | _, _ => false

/-- A running POLL.STD is at one of its places (rule R201). -/
def pollStdPlace (s : State) : Bool :=
  match s.phase, s.sub with
  | .idle, _ => false
  | _, .abortCtl _ => true
  | _, .abortData _ => !s.outCtl
  | .p1, .first _ => !s.outData
  | .p2, .deadline => !s.outData
  | .p2, sub => !s.outData && pulsePlace s.cfg.waiter sub
  | .p3, .start => !s.outData && decide (s.cyc.toNat ≤ 62)
  | .p3, sub => !s.outData && decide (s.cyc.toNat ≤ 62) && pulsePlace s.cfg.waiter sub
  | .p4, .start => !s.outData && decide (s.cyc = 63)
  | .p4, sub => !s.outData && decide (s.cyc = 63) && pulsePlace s.cfg.waiter sub
  | .p5, .first _ => !s.outData && decide (s.cyc = 63)
  | .p6, .start => decide (s.cyc.toNat ≤ 7)
  | .p6, .seq n => decide (1 ≤ n) && decide (n ≤ 4) && decide (s.cyc.toNat ≤ 7)
  | .p7, .start => decide (s.cyc = 7)
  | .p7, .seq n => decide (n = 1) && decide (s.cyc = 7) && !s.outCtl
  | _, _ => false

/-- The places of a pulse, with the pulse line low from its second call on (rule R206). -/
def slotPlace (s : State) (n : Nat) : Bool :=
  decide (n ≤ 3) && decide (s.outCtl = decide (n ≤ 1))

/-- A running SEND.STD is at one of its places (rule R202). -/
def sendStdPlace (s : State) : Bool :=
  match s.phase, s.sub with
  | .idle, _ => false
  | _, .abortCtl _ => true
  | _, .abortData _ => s.outCtl
  | .s1, .first _ => s.outCtl
  | .s1, .deadline => s.outCtl
  | .s2, .seq n => slotPlace s n && decide (s.cyc = 0)
  | .s3, .first _ => s.outCtl && decide (1 ≤ s.cyc.toNat) && decide (s.cyc.toNat ≤ 63)
  | .s3, .seq n => slotPlace s n && decide (1 ≤ s.cyc.toNat) && decide (s.cyc.toNat ≤ 63)
  | .s4, .first _ => s.outCtl && decide (s.cyc = 63)
  | .s4, .seq n => slotPlace s n && decide (s.cyc = 63) && (decide (n = 0) || !s.outData)
  | .s5, .first _ => s.outCtl && !s.outData && decide (s.cyc.toNat ≤ 7)
  | .s5, .second _ => s.outCtl && !s.outData && decide (s.cyc.toNat ≤ 7)
  | .s5, .start => s.outCtl && !s.outData && decide (s.cyc.toNat ≤ 7)
  | .s6, .first _ => s.outCtl && !s.outData && decide (s.cyc = 7)
  | .s7, .start => s.outCtl && !s.outData && decide (s.cyc = 7)
  | _, _ => false

/-- A running Setup is at one of its places, with what its calls so far have set (rules R183, R203, R204). -/
def setupPlace (irq : Bool) (s : State) : Bool :=
  atIdle s &&
    match s.sub with
    | .seq n =>
      decide (1 ≤ n) && decide (n ≤ 7) && (irq || decide (n ≤ 5)) && decide (s.outCtl = idleCtl s.cfg) &&
        (decide (n < 2) || decide (s.dirCtlOut = .output)) && (decide (n < 3) || !s.outData) &&
        (decide (n < 4) || decide (s.dirDataOut = .output)) && (decide (n < 5) || decide (s.dirCtlIn = .input)) &&
        (decide (n < 6) || decide (s.dirDataIn = .input))
    | _ => false

/-- Where the instance stands: at rest, or at a place of the operation it runs, which it accepts (rules R30, R103,
R263). -/
def placeOk (s : State) : Bool :=
  match s.cur with
  | none => atIdle s && decide (s.sub = .start) && decide (s.delayLeft = 0) && restsIdle s
  | some (.waitPin _ _ _) =>
    atIdle s && restsIdle s && (match s.sub with | .first _ => true | _ => false)
  | some (.waitPulsePoll _ _) =>
    (waiterRefusal .polling s).isNone && atIdle s && restsIdle s && pulsePlace .polling s.sub
  | some (.waitPulseIrq _ _) =>
    (waiterRefusal .interruptCounted s).isNone && atIdle s && restsIdle s && pulsePlace .interruptCounted s.sub
  | some .peekPro =>
    (planeRefusal .pro .throttleClient s).isNone && atIdle s && restsIdle s &&
      (match s.sub with | .peeked _ => true | _ => false)
  | some .setupProJc =>
    (setupRefusal .pro .joystickClient s).isNone && restsIdle s && setupPlace false s
  | some .setupProTc =>
    (setupRefusal .pro .throttleClient s).isNone && restsIdle s && setupPlace false s
  | some .setupStdJc =>
    (setupRefusal .std .joystickClient s).isNone && restsIdle s &&
      setupPlace (decide (s.cfg.waiter = .interruptCounted)) s
  | some .setupStdTc =>
    (setupRefusal .std .throttleClient s).isNone && restsIdle s && setupPlace false s
  | some (.pollPro _ _) => (planeRefusal .pro .joystickClient s).isNone && dirsSet s && pollProPlace s
  | some (.sendPro _ _) => (planeRefusal .pro .throttleClient s).isNone && dirsSet s && sendProPlace s
  | some (.pollStd _ _) => (planeRefusal .std .joystickClient s).isNone && dirsSet s && pollStdPlace s
  | some (.sendStd _ _) => (planeRefusal .std .throttleClient s).isNone && dirsSet s && sendStdPlace s
  | some _ => false

/-- A callback is attached only where the interrupt-counted waiter is, and an edge is pending only where a callback is
attached (rules R42, R56, R178, R229). -/
def edgesOk (s : State) : Bool :=
  (!s.attached || (isInstance s.cfg .std .joystickClient && decide (s.cfg.waiter = .interruptCounted))) &&
    (decide (s.edgePending = 0) || s.attached)

/-- The clock has not gone on by 2^31 or more since ENGINE last read it (rule R54). -/
def clockOk (s : State) : Bool :=
  match s.lastRead with
  | none => true
  | some a => decide ((s.now - a).toNat < 2 ^ 31)

/-- The invariant: the buffers have their form and width, `CYC` never exceeds 75 (rule R30), the instance stands at a
place of what it runs, the callback is where it may be, and the clock is where rule R54 lets it be. -/
def State.inv (s : State) : Bool :=
  buffersOk s && decide (s.cyc.toNat ≤ 75) && placeOk s && edgesOk s && clockOk s

/-- At rest, ready for the next call: nothing runs, the position is `(IDLE, 0)` (rule R30). -/
def State.atRest (s : State) : Bool :=
  decide (s.cur = none) && atIdle s && decide (s.sub = .start) && decide (s.delayLeft = 0)

/-- An event that is a call of HOST's: an operation of the program that has not returned yet while it is queued. -/
def isCall (e : Event) : Bool :=
  match e with
  | .issue _ => true
  | .wire _ _ => true
  | .construct _ => true
  | _ => false

/-- The end of a run (rule R279): every operation of the program has returned or been turned away, none is still queued,
the engine is at `(IDLE, 0)`, and no edge is pending. -/
def State.ended (s : State) : Bool := s.atRest && decide (s.edgePending = 0) && s.inputs.all fun e => !isCall e

/-- The end of a run of two instances (rule R279): of every engine. -/
def Link.ended (l : Link) : Bool := l.a.ended && l.b.ended

/-- The observed result of a run (rule R279). -/
structure Observed where
  /-- The return values in their order, each with the output record of a successful operation. -/
  answers : List Answer
  /-- The final level of each wire; an output that drives nothing has none. -/
  ctlOut : Option Bool
  dataOut : Option Bool
  ctlIn : Bool
  dataIn : Bool
deriving DecidableEq, Repr

/-- The observed result of one instance (rule R279). -/
def State.observed (s : State) : Observed :=
  { answers := s.history.reverse, ctlOut := wireCtlOut s, dataOut := wireDataOut s, ctlIn := s.wCtlIn
    dataIn := s.wDataIn }

/-- The observed result of two instances on a loopback (rule R279). -/
def Link.observed (l : Link) : Observed × Observed := (l.a.observed, l.b.observed)

/-! ## Schedules (rule R274) -/

/-- An endless schedule of the agents: who moves at each turn, and how. -/
abbrev Schedule := Nat → Event

/-- The state before turn `n` of a schedule; none once a turn has given no next state. -/
def stateAt (σ : Schedule) (s : State) : Nat → Option State
  | 0 => some s
  | n + 1 =>
    match stateAt σ s n with
    | none => none
    | some t =>
      match turn (σ n) t with
      | .next u => some u
      | _ => none

/-- A-CLK of rule R274: the clock advances, again and again. -/
def clockAdvancesForEver (σ : Schedule) : Prop := ∀ n, ∃ m us, n ≤ m ∧ σ m = .clock us ∧ us ≠ 0

/-- A-DLY of rule R274, of every primitive call but `delay_us`: each returns, so ENGINE makes its next call. -/
def callsReturn (σ : Schedule) : Prop := ∀ n, ∃ m, n ≤ m ∧ σ m = .engine

/-- A-DLY of rule R274, of `delay_us`: each returns. -/
def delaysReturn (σ : Schedule) (s : State) : Prop :=
  ∀ n t, stateAt σ s n = some t → ∃ m u, n ≤ m ∧ stateAt σ s m = some u ∧ u.delayLeft = 0

/-- The weak fairness of EDGECB (rule R73): a pending edge is counted later. -/
def edgesAreCounted (σ : Schedule) (s : State) : Prop :=
  ∀ n t, stateAt σ s n = some t → 0 < t.edgePending → ∃ m, n ≤ m ∧ σ m = .edgecb

/-- The data-plane operations (rule R3). -/
def isDataPlane (i : Instr) : Bool :=
  match i with
  | .pollPro _ _ => true
  | .sendPro _ _ => true
  | .pollStd _ _ => true
  | .sendStd _ _ => true
  | _ => false

/-- ENGINE's turn makes no out-of-range access (rule R63) and loses no position. -/
def safeTurn (s : State) : Bool :=
  match engineTurn s with
  | .fault _ => false
  | _ => true

/-! ## The words the statements use -/

/-- What ENGINE last read from the clock, after these calls (newest first). -/
def clockSeen (calls : List PrimCall) (before : Option Word) : Option Word :=
  match calls with
  | [] => before
  | .clockRead t :: _ => some t
  | _ :: cs => clockSeen cs before

/-- The state after an operation that returned `r`, made these calls (newest first) and changed nothing else: the
position is `(IDLE, 0)` (rule R30). -/
def State.returned (r : Result) (calls : List PrimCall) (s : State) : State :=
  { s with
    cur := none, phase := .idle, cyc := 0, sub := .start, delayLeft := 0, result := r, turned := none,
    failure := none, calls := calls, lastRead := clockSeen calls s.lastRead, history := ⟨r, .nothing⟩ :: s.history }

/-- The state right after an operation has been started and has made these calls, at this place (rule R30). -/
def State.started (i : Instr) (p : Phase) (c : BitVec 7) (sub : Sub) (calls : List PrimCall) (s : State) : State :=
  { s with
    cur := some i, phase := p, cyc := c, sub := sub, delayLeft := 0, result := .nothing, turned := none,
    failure := none, calls := calls, lastRead := clockSeen calls s.lastRead }

/-- The operation `i` runs, stands at this phase and place, and no `delay_us` is in progress. -/
abbrev State.standsAt (i : Instr) (p : Phase) (sub : Sub) (s : State) : Prop :=
  s.cur = some i ∧ s.delayLeft = 0 ∧ s.phase = p ∧ s.sub = sub

/-- The state after the last call `c` of a running operation, which returns `r`: the position is `(IDLE, 0)` (rule
R30). -/
def State.ends (r : Result) (c : PrimCall) (s : State) : State :=
  { s with
    cur := none, phase := .idle, cyc := 0, sub := .start, delayLeft := 0, result := r, calls := c :: s.calls,
    lastRead := clockSeen [c] s.lastRead, history := ⟨r, .nothing⟩ :: s.history }

/-- The state after one primitive call of a running operation. -/
def State.called (c : PrimCall) (s : State) : State :=
  { s with calls := c :: s.calls, lastRead := clockSeen [c] s.lastRead }

/-- The operation `i` runs at this place, and no `delay_us` is in progress. -/
abbrev State.runsAt (i : Instr) (sub : Sub) (s : State) : Prop := s.cur = some i ∧ s.delayLeft = 0 ∧ s.sub = sub

/-- The nine valid Directions (rule R21). -/
def validDirection (d : Direction) : Bool :=
  decide (d ∈ [0#4, 1#4, 2#4, 3#4, 4#4, 6#4, 8#4, 9#4, 12#4])

/-- A JoystickState whose fields are in the documented range of the Pro variant (rules R24, R130). -/
def validProState (r : JoystickState) : Bool :=
  decide (r.x.toNat ≤ 1023) && decide (r.y.toNat ≤ 1023) && decide (r.z.toNat ≤ 1023) && validDirection r.hat1

/-- A JoystickState whose fields are in the documented range of the Std variant (rules R25, R151). -/
def validStdState (r : JoystickState) : Bool :=
  decide (r.x.toNat ≤ 2047) && decide (r.y.toNat ≤ 2047) && decide (r.z.toNat ≤ 1023) && validDirection r.hat1

/-- A Pro JoystickConfig in its documented range (rules R26, R130). -/
def validProConfig (r : ProConfig) : Bool := decide (r.brightness.toNat ≤ 31)

/-- A Std JoystickConfig in its documented range (rules R27, R151). -/
def validStdConfig (r : StdConfig) : Bool := decide (r.brightness.toNat ≤ 127)

/-- One of the four Setup operations (rule R102). -/
def isSetup (i : Instr) : Bool :=
  match i with
  | .setupProJc => true
  | .setupProTc => true
  | .setupStdJc => true
  | .setupStdTc => true
  | _ => false

/-- Each side's configuration can be constructed, and the peer's frame timeout it names is the other side's own, so that
each back-off is at least the other's frame timeout (rules R12, R271). -/
def Link.configured (l : Link) : Bool :=
  l.a.cfg.wf && l.b.cfg.wf && decide (l.a.cfg.peerFrameTimeout = l.b.cfg.frameTimeout) &&
    decide (l.b.cfg.peerFrameTimeout = l.a.cfg.frameTimeout)

/-- The four wires of a loopback carry what the two sides drive (rules R34, R70). -/
def Link.wired (l : Link) : Bool :=
  decide (l.a.wCtlIn = l.b.outCtl) && decide (l.a.wDataIn = l.b.outData) && decide (l.b.wCtlIn = l.a.outCtl) &&
    decide (l.b.wDataIn = l.a.outData)

/-- Two instances right before their first frame on a loopback: both are set up and at rest, no edge is pending, and the
wires are connected (rules R189, R262). -/
def Link.ready (l : Link) : Bool :=
  l.a.inv && l.b.inv && l.a.atRest && l.b.atRest && l.a.setupDone && l.b.setupDone && outputsIdle l.a &&
    outputsIdle l.b && decide (l.a.edgePending = 0) && decide (l.b.edgePending = 0) && l.configured && l.wired

/-- An event that is no call and changes no operand: ENGINE, EDGECB and CLOCK. -/
def isBackground (e : LinkEvent) : Bool :=
  match e with
  | .onA .engine => true
  | .onA .edgecb => true
  | .onA (.clock _) => true
  | .onB .engine => true
  | .onB .edgecb => true
  | .onB (.clock _) => true
  | _ => false

/-- The events of a run that are not background, in their order. -/
def callsOf (es : List LinkEvent) : List LinkEvent := es.filter fun e => !isBackground e

end Sys2Proof.Machine
end

