-- ==== Sys2Proof/Certificates/Slice0/Obligations.lean ====
section
/-! DEFINITION. The statements for the provers. Each says which rule of spec/ it formalises; a clause that rests on a
choice of the spec's own or of the model's names it. The words they use stand in Safety and, for the shapes that several
operations share, in the section below. -/

/-! ## Shared shapes -/

namespace Sys2Proof.Claims

open Sys2Proof Sys2Proof.Machine

/-- A `WaitPin(CTL_IN, v, DL)` inside the operation `i` at phase `p` (rules R162, R163): the read, with the level there or
not; the deadline test, expired or not; the sleep of an instance that is not BUSY. `onward` is the update once the level
is there, `f` the class of the failure once the deadline is expired (rule R232). -/
def waitsFor (v : Bool) (i : Instr) (p : Phase) (place : WaitPos → Sub) (onward : State → State) (f : FrameFailure)
    (s : State) : Prop :=
  (s.standsAt i p (place .read) → s.wCtlIn = v → exec i s = .next (onward (s.called (.pinRead .ctlIn v)))) ∧
  (s.standsAt i p (place .read) → s.wCtlIn = !v →
    exec i s = .next { s.called (.pinRead .ctlIn (!v)) with sub := place .test }) ∧
  (s.standsAt i p (place .test) → expiredAt s.dl s.now = true →
    exec i s = .next
      { s.called (.clockRead s.now) with sub := .abortCtl (failureCode f s.cfg), failure := some f }) ∧
  (s.standsAt i p (place .test) → expiredAt s.dl s.now = false → s.cfg.busy = true →
    exec i s = .next { s.called (.clockRead s.now) with sub := place .read }) ∧
  (s.standsAt i p (place .test) → expiredAt s.dl s.now = false → s.cfg.busy = false →
    exec i s = .next { s.called (.clockRead s.now) with sub := place .sleep }) ∧
  (s.standsAt i p (place .sleep) →
    exec i s = .next
      { s.called (.delayUs s.cfg.pollSleep) with delayLeft := s.cfg.pollSleep.toNat, sub := place .read })

/-- The frame failure `f` is detected: the two writes of `abort` come next (rule R232). -/
def fails (f : FrameFailure) (s : State) : State :=
  { s with sub := .abortCtl (failureCode f s.cfg), failure := some f }

/-- A `WaitForPulse(DL, toggle of the request line)` inside POLL.STD at phase `p`, in the variant `WAITER` selects (rules
R172 to R175): every place of it. `done` is the update once its result stands in `PW_RESULT`. -/
def awaitsPulse (i : Instr) (p : Phase) (done : PulseResult → State → State) (s : State) : Prop :=
  (s.standsAt i p .snapshot → s.cfg.waiter = .interruptCounted →
    exec i s = .next { s.called (.counterRead s.edgeCnt) with baseCnt := s.edgeCnt, sub := .trigger }) ∧
  (s.standsAt i p .trigger → s.cfg.waiter = .interruptCounted →
    exec i s = .next
      { s.called (.pinWrite .ctlOut (!s.req)) with req := !s.req, outCtl := !s.req, sub := .count .count }) ∧
  (s.standsAt i p (.count .count) → s.cfg.waiter = .interruptCounted → s.edgeCnt - s.baseCnt = 0 →
    exec i s = .next { s.called (.counterRead s.edgeCnt) with sub := .count .test }) ∧
  (s.standsAt i p (.count .count) → s.cfg.waiter = .interruptCounted → s.edgeCnt - s.baseCnt = 1 →
    exec i s = .next (done .finished { s.called (.counterRead s.edgeCnt) with pwResult := .finished })) ∧
  (s.standsAt i p (.count .count) → s.cfg.waiter = .interruptCounted → 2 ≤ (s.edgeCnt - s.baseCnt).toNat →
    exec i s = .next (done .tooMany { s.called (.counterRead s.edgeCnt) with pwResult := .tooMany })) ∧
  (s.standsAt i p (.count .test) → s.cfg.waiter = .interruptCounted →
    exec i s = .next
      { s.called (.clockRead s.now) with
        sub := .count (if expiredAt s.dl s.now then .pin else if s.cfg.busy then .count else .sleep) }) ∧
  (s.standsAt i p (.count .pin) → s.cfg.waiter = .interruptCounted → s.wCtlIn = true →
    exec i s = .next (done .notStarted { s.called (.pinRead .ctlIn true) with pwResult := .notStarted })) ∧
  (s.standsAt i p (.count .pin) → s.cfg.waiter = .interruptCounted → s.wCtlIn = false →
    exec i s = .next (done .started { s.called (.pinRead .ctlIn false) with pwResult := .started })) ∧
  (s.standsAt i p (.count .sleep) → s.cfg.waiter = .interruptCounted →
    exec i s = .next
      { s.called (.delayUs s.cfg.pollSleep) with delayLeft := s.cfg.pollSleep.toNat, sub := .count .count }) ∧
  (s.standsAt i p .trigger → s.cfg.waiter = .polling →
    exec i s = .next
      { s.called (.pinWrite .ctlOut (!s.req)) with req := !s.req, outCtl := !s.req, sub := .first .read }) ∧
  (s.standsAt i p (.first .read) → s.cfg.waiter = .polling →
    exec i s = .next
      { s.called (.pinRead .ctlIn s.wCtlIn) with sub := if s.wCtlIn then .first .test else .second .read }) ∧
  (s.standsAt i p (.first .test) → s.cfg.waiter = .polling → expiredAt s.dl s.now = true →
    exec i s = .next (done .notStarted { s.called (.clockRead s.now) with pwResult := .notStarted })) ∧
  (s.standsAt i p (.first .test) → s.cfg.waiter = .polling → expiredAt s.dl s.now = false →
    exec i s = .next
      { s.called (.clockRead s.now) with sub := if s.cfg.busy then .first .read else .first .sleep }) ∧
  (s.standsAt i p (.second .read) → s.cfg.waiter = .polling → s.wCtlIn = true →
    exec i s = .next (done .finished { s.called (.pinRead .ctlIn true) with pwResult := .finished })) ∧
  (s.standsAt i p (.second .read) → s.cfg.waiter = .polling → s.wCtlIn = false →
    exec i s = .next { s.called (.pinRead .ctlIn false) with sub := .second .test }) ∧
  (s.standsAt i p (.second .test) → s.cfg.waiter = .polling → expiredAt s.dl s.now = true →
    exec i s = .next (done .started { s.called (.clockRead s.now) with pwResult := .started })) ∧
  (s.standsAt i p (.second .test) → s.cfg.waiter = .polling → expiredAt s.dl s.now = false →
    exec i s = .next
      { s.called (.clockRead s.now) with sub := if s.cfg.busy then .second .read else .second .sleep }) ∧
  (s.standsAt i p (.first .sleep) → s.cfg.waiter = .polling →
    exec i s = .next
      { s.called (.delayUs s.cfg.pollSleep) with delayLeft := s.cfg.pollSleep.toNat, sub := .first .read }) ∧
  (s.standsAt i p (.second .sleep) → s.cfg.waiter = .polling →
    exec i s = .next
      { s.called (.delayUs s.cfg.pollSleep) with delayLeft := s.cfg.pollSleep.toNat, sub := .second .read })

/-- At this deadline test, the deadline is expired (rules R161, R162). -/
abbrev timedOut (place : Sub) (s : State) : Prop := s.sub = place ∧ expiredAt s.dl s.now = true

/-- The places of a `WaitForPulse` at which it can have a result that is no `Finished` (rules R173 to R175). -/
def endsPulse (sub : Sub) : Bool :=
  match sub with
  | .first .test => true
  | .second .test => true
  | .count .count => true
  | .count .pin => true
  | _ => false

/-- How many primitive calls of each kind a Pro frame makes, in the order of rule R189: writes of DATA_OUT, writes of
CTL_OUT, reads of CTL_IN, reads of DATA_IN, `clock_read`. -/
def frameCalls (calls : List PrimCall) : List Nat :=
  [calls.countP fun c => match c with | .pinWrite .dataOut _ => true | _ => false,
    calls.countP fun c => match c with | .pinWrite .ctlOut _ => true | _ => false,
    calls.countP fun c => match c with | .pinRead .ctlIn _ => true | _ => false,
    calls.countP fun c => match c with | .pinRead .dataIn _ => true | _ => false,
    calls.countP fun c => match c with | .clockRead _ => true | _ => false]

/-- A primitive call without the value of the edge counter, of which only differences matter (rule R40). -/
def anyCount (c : PrimCall) : PrimCall :=
  match c with
  | .counterRead _ => .counterRead 0
  | c => c

/-- The operations that write `OK`: the four decodes (of a wire word too, log entry 3) and the data-plane operations, which
decode at their end (rule R32). -/
def writesOk (i : Instr) : Bool :=
  match i with
  | .decProState _ => true
  | .decProCfg _ => true
  | .decStdState _ => true
  | .decStdCfg _ => true
  | .wireProState _ => true
  | .wireProCfg _ => true
  | .wireStdState _ => true
  | .wireStdCfg _ => true
  | i => isDataPlane i

/-- A WAITPULSE of HOST's own. -/
def isWaitPulse (i : Instr) : Bool :=
  match i with
  | .waitPulsePoll _ _ => true
  | .waitPulseIrq _ _ => true
  | _ => false

/-- The record a Pro JoystickState buffer stands for, field by field (rule R81). -/
def proStateOf (cfg : Config) (buf : BitBuffer) : JoystickState :=
  { x := BitVec.ofNat 16 (rawField buf 0 8 + 256 * rawField buf 16 2)
    y := BitVec.ofNat 16 (rawField buf 8 8 + 256 * rawField buf 18 2)
    z := BitVec.ofNat 16 (rawField buf 24 8 + 256 * rawField buf 22 2)
    hat1 := proHat1Dir cfg (rawField buf 32 4)
    hat2 := directionOf (rawBit buf 37) (rawBit buf 38) (rawBit buf 39) (rawBit buf 36)
    mode := proMode cfg (rawBit buf 45) (rawBit buf 46) (rawBit buf 47)
    trigger1 := rawBit buf 40, fire := rawBit buf 41, a := rawBit buf 42, c := rawBit buf 43
    trigger2 := rawBit buf 44, b := rawBit buf 48, pinkie := rawBit buf 49
    t1 := rawBit buf 50, t2 := rawBit buf 51, t3 := rawBit buf 52, t4 := rawBit buf 53, t5 := rawBit buf 54
    t6 := rawBit buf 55 }

/-- The record a Pro JoystickConfig buffer stands for, field by field (rule R86). -/
def proConfigOf (cfg : Config) (buf : BitBuffer) : ProConfig :=
  { brightness := BitVec.ofNat 8 (rawField buf 0 5), pov1Blink := rawBit buf 5, fireLed := !rawBit buf 10
    buttonALed := ledDecode cfg.ledCode (rawField buf 6 2), pov2Led := ledDecode cfg.ledCode (rawField buf 8 2)
    buttonBLed := ledDecode cfg.ledCode (rawField buf 11 2), t1t2Led := ledDecode cfg.ledCode (rawField buf 13 2)
    t3t4Led := ledDecode cfg.ledCode (rawField buf 15 2), t5t6Led := ledDecode cfg.ledCode (rawField buf 17 2) }

/-- The record a Std JoystickState buffer stands for, field by field (rule R90). -/
def stdStateOf (cfg : Config) (buf : BitBuffer) : JoystickState :=
  { x := BitVec.ofNat 16 (rawField buf 0 8 + 256 * rawField buf 16 3)
    y := BitVec.ofNat 16 (rawField buf 8 8 + 256 * rawField buf 19 3)
    z := BitVec.ofNat 16 (rawField buf 24 8 + 256 * rawField buf 22 2)
    hat1 := stdHat1Dir cfg (rawField buf 32 4)
    hat2 := directionOf (rawBit buf 36) (rawBit buf 37) (rawBit buf 38) (rawBit buf 39)
    mode := stdMode cfg (rawBit buf 47) (rawField buf 54 2)
    trigger1 := rawBit buf 40, trigger2 := rawBit buf 41, fire := rawBit buf 42, a := rawBit buf 43
    b := rawBit buf 44, c := rawBit buf 45, pinkie := rawBit buf 46
    t1 := rawBit buf 48, t2 := rawBit buf 49, t3 := rawBit buf 50, t4 := rawBit buf 51, t5 := rawBit buf 52
    t6 := rawBit buf 53 }

/-- The record a Std JoystickConfig buffer stands for (rule R96). -/
def stdConfigOf (buf : BitBuffer) : StdConfig :=
  { brightness := BitVec.ofNat 8 (rawField buf 0 7), pov1Blink := rawBit buf 7 }

/-- The XOR of backing bytes 0 to 6 (rules R95, R145). -/
def xorOfSeven (buf : BitBuffer) : Byte :=
  rawByte buf 0 ^^^ rawByte buf 1 ^^^ rawByte buf 2 ^^^ rawByte buf 3 ^^^ rawByte buf 4 ^^^ rawByte buf 5 ^^^
    rawByte buf 6

/-- What a decode of the Std state in `buf` leaves when nothing runs: the record and `OK` true if the checksum is right;
else some record, of which nothing is said, `OK` false (it is part of the answer too, rule R104), and one free value drawn (rules R141, R146; U5, log entry 8). -/
def decodedStd (i : Instr) (buf : BitBuffer) (s : State) : Prop :=
  (rawByte buf 7 = xorOfSeven buf →
    exec i s = .next { s.returned (.state (stdStateOf s.cfg buf) true) [] with ok := true }) ∧
  (rawByte buf 7 ≠ xorOfSeven buf →
    ∃ rec, exec i s = .next { s.returned (.state rec false) [] with ok := false, free := s.free + 1 })

/-- Which instance accepts an operation: the table of rule R103. The pure operations and the timing helper are accepted
by every instance, and a wire word too (log entry 3). -/
def acceptedBy (c : Config) (i : Instr) : Bool :=
  match i with
  | .setupProJc => isInstance c .pro .joystickClient
  | .pollPro _ _ => isInstance c .pro .joystickClient
  | .setupProTc => isInstance c .pro .throttleClient
  | .sendPro _ _ => isInstance c .pro .throttleClient
  | .peekPro => isInstance c .pro .throttleClient
  | .setupStdJc => isInstance c .std .joystickClient
  | .pollStd _ _ => isInstance c .std .joystickClient
  | .waitPulsePoll _ _ => isInstance c .std .joystickClient && decide (c.waiter = .polling)
  | .waitPulseIrq _ _ => isInstance c .std .joystickClient && decide (c.waiter = .interruptCounted)
  | .setupStdTc => isInstance c .std .throttleClient
  | .sendStd _ _ => isInstance c .std .throttleClient
  | .peekStd => isInstance c .std .throttleClient
  | _ => true

/-- The operations that need SETUP_DONE (rule R263). -/
def needsSetup (i : Instr) : Bool :=
  match i with
  | .pollPro _ _ => true
  | .sendPro _ _ => true
  | .peekPro => true
  | .pollStd _ _ => true
  | .sendStd _ _ => true
  | .peekStd => true
  | _ => false

/-- The operations that a buffer given by HOST can stop with a RangeFault: the accesses of `BB.*`, the decodes and CHECKSUM
(rules R105, R226, R227). -/
def takesHostBuffer (i : Instr) : Bool :=
  match i with
  | .bbGetBit _ _ => true
  | .bbSetBit _ _ _ => true
  | .bbGetField _ _ _ => true
  | .bbSetField _ _ _ _ => true
  | .bbGetByte _ _ => true
  | .bbSetByte _ _ _ => true
  | .decProState _ => true
  | .decProCfg _ => true
  | .decStdState _ => true
  | .decStdCfg _ => true
  | .checksum _ => true
  | _ => false

/-- Two states that differ at most in what an operation leaves stale: `TXBUF`, `RXBUF`, `DL`, `PW_RESULT`, `OK`, `ERR`,
`BASE_CNT` and the value of `EDGE_CNT` (rule R264). -/
abbrev sameButStale (s u : State) : Prop :=
  u = { s with
    txbuf := u.txbuf, rxbuf := u.rxbuf, dl := u.dl, pwResult := u.pwResult, ok := u.ok, err := u.err,
    baseCnt := u.baseCnt, edgeCnt := u.edgeCnt }

end Sys2Proof.Claims

section Statements

open Sys2Proof Sys2Proof.Machine Sys2Proof.Claims

/-! ## BitBuffer -/

/-- BB.ZERO (rule R110): operation code 0x00; every backing byte is 0, pad bits included; nothing else changes. -/
def Obligations.BbZeroMakesZeroBuffer : Prop :=
  (∀ (n : Nat) (s : State), s.cur = none →
    exec (.bbZero n) s = .next (s.returned (.buffer ⟨n, List.replicate ((n + 7) / 8) 0⟩) [])) ∧
  (∀ (n : Nat) (a : Args), 1 ≤ n → n ≤ 64 → decode (.op 0x00 { a with n := n }) = .ok (.bbZero n))

/-- BB.GETBIT (rule R111): bit `i mod 8` of backing byte `i / 8`, or RangeFault. -/
def Obligations.BbGetBitReadsOneBit : Prop :=
  (∀ (buf : BitBuffer) (i : Int) (s : State), s.cur = none →
    (0 ≤ i ∧ i < buf.N →
      exec (.bbGetBit buf i) s =
        .next (s.returned (.bit ((buf.bytes.getD (i.toNat / 8) 0).getLsbD (i.toNat % 8))) [])) ∧
    (i < 0 ∨ buf.N ≤ i → exec (.bbGetBit buf i) s = .fault (.rangeFault ⟨.getBit i, buf.N⟩))) ∧
  (∀ (buf : BitBuffer) (i : Int) (a : Args), buf.wf = true →
    decode (.op 0x01 { a with buf := buf, i := i }) = .ok (.bbGetBit buf i))

/-- BB.SETBIT (rule R112): bit `i` becomes bit 0 of `v`; every other bit, pad bits included, is unchanged; or
RangeFault. -/
def Obligations.BbSetBitWritesOneBit : Prop :=
  (∀ (buf : BitBuffer) (i : Int) (v : Nat) (s : State), buf.wf = true → s.cur = none →
    (0 ≤ i ∧ i < buf.N →
      ∃ out : BitBuffer, exec (.bbSetBit buf i v) s = .next (s.returned (.buffer out) []) ∧ out.N = buf.N ∧
        out.bytes.length = buf.bytes.length ∧
        ∀ j : Nat, rawBit out j = if j = i.toNat then v.testBit 0 else rawBit buf j) ∧
    (i < 0 ∨ buf.N ≤ i → exec (.bbSetBit buf i v) s = .fault (.rangeFault ⟨.setBit i, buf.N⟩))) ∧
  (∀ (buf : BitBuffer) (i : Int) (v : Nat) (a : Args), buf.wf = true →
    decode (.op 0x02 { a with buf := buf, i := i, v := v }) = .ok (.bbSetBit buf i v))

/-- BB.GETFIELD (rule R113): bit `j` of the unsigned, zero-extended value is buffer bit `start + j`, or RangeFault. The
bound 32 on the width is the spec's own choice (D31). -/
def Obligations.BbGetFieldReadsUnsigned : Prop :=
  ∀ (buf : BitBuffer) (start width : Int) (s : State), s.cur = none →
    (0 ≤ start ∧ 1 ≤ width ∧ width ≤ 32 ∧ start + width ≤ buf.N →
      ∃ v : Word, exec (.bbGetField buf start width) s = .next (s.returned (.value v) []) ∧
        ∀ j : Nat, v.getLsbD j = (decide (j < width.toNat) && rawBit buf (start.toNat + j))) ∧
    (start < 0 ∨ width < 1 ∨ 32 < width ∨ buf.N < start + width →
      exec (.bbGetField buf start width) s = .fault (.rangeFault ⟨.getField start width, buf.N⟩))

/-- BB.SETFIELD (rule R114): buffer bit `start + j` becomes bit `j` of `v`, higher bits of `v` are ignored, every bit
outside the field is unchanged; or RangeFault, under the condition of BB.GETFIELD. -/
def Obligations.BbSetFieldWritesUnsigned : Prop :=
  ∀ (buf : BitBuffer) (start width : Int) (v : Nat) (s : State), buf.wf = true → s.cur = none →
    (0 ≤ start ∧ 1 ≤ width ∧ width ≤ 32 ∧ start + width ≤ buf.N →
      ∃ out : BitBuffer, exec (.bbSetField buf start width v) s = .next (s.returned (.buffer out) []) ∧
        out.N = buf.N ∧ out.bytes.length = buf.bytes.length ∧
        ∀ j : Nat, rawBit out j =
          if start.toNat ≤ j ∧ j < start.toNat + width.toNat then v.testBit (j - start.toNat) else rawBit buf j) ∧
    (start < 0 ∨ width < 1 ∨ 32 < width ∨ buf.N < start + width →
      exec (.bbSetField buf start width v) s = .fault (.rangeFault ⟨.setField start width, buf.N⟩))

/-- BB.GETBYTE (rule R115): backing byte `k`, pad bits included, whose bit `j` is buffer bit `8 k + j`; or RangeFault. -/
def Obligations.BbGetByteReadsBackingByte : Prop :=
  (∀ (buf : BitBuffer) (k : Int) (s : State), s.cur = none →
    (0 ≤ k ∧ k < ((buf.N + 7) / 8 : Nat) →
      exec (.bbGetByte buf k) s = .next (s.returned (.byte (buf.bytes.getD k.toNat 0)) []) ∧
      ∀ j : Nat, j < 8 → (buf.bytes.getD k.toNat 0).getLsbD j = rawBit buf (8 * k.toNat + j)) ∧
    (k < 0 ∨ ((buf.N + 7) / 8 : Nat) ≤ k →
      exec (.bbGetByte buf k) s = .fault (.rangeFault ⟨.getByte k, buf.N⟩))) ∧
  (∀ (buf : BitBuffer) (k : Int) (a : Args), buf.wf = true →
    decode (.op 0x05 { a with buf := buf, k := k }) = .ok (.bbGetByte buf k))

/-- BB.SETBYTE (rule R116): backing byte `k` becomes `v mod 256`, pad bits included, all other bytes are unchanged; or
RangeFault. -/
def Obligations.BbSetByteWritesBackingByte : Prop :=
  (∀ (buf : BitBuffer) (k : Int) (v : Nat) (s : State), s.cur = none →
    (0 ≤ k ∧ k < ((buf.N + 7) / 8 : Nat) →
      exec (.bbSetByte buf k v) s =
        .next (s.returned (.buffer ⟨buf.N, buf.bytes.set k.toNat (BitVec.ofNat 8 (v % 256))⟩) [])) ∧
    (k < 0 ∨ ((buf.N + 7) / 8 : Nat) ≤ k →
      exec (.bbSetByte buf k v) s = .fault (.rangeFault ⟨.setByte k, buf.N⟩))) ∧
  (∀ (buf : BitBuffer) (k : Int) (v : Nat) (a : Args), buf.wf = true →
    decode (.op 0x06 { a with buf := buf, k := k, v := v }) = .ok (.bbSetByte buf k v))

/-- The six laws of rule R118, on the accesses the operations are made of. -/
def Obligations.BitBufferAccessLaws : Prop :=
  (∀ (buf : BitBuffer) (i j : Int) (v : Bool), buf.wf = true → 0 ≤ i → i < buf.N → 0 ≤ j → j < buf.N →
    ∃ out, setBit buf i v = .ok out ∧ getBit out i = .ok v ∧ (j ≠ i → getBit out j = getBit buf j)) ∧
  (∀ (buf : BitBuffer) (s w : Int) (v : Nat), buf.wf = true → fieldInRange buf s w = true →
    ∃ out, setField buf s w v = .ok out ∧ getField out s w = .ok (v % 2 ^ w.toNat) ∧
      ∀ j : Int, 0 ≤ j → j < buf.N → (j < s ∨ s + w ≤ j) → getBit out j = getBit buf j) ∧
  (∀ (buf : BitBuffer) (k : Int), buf.wf = true → 0 ≤ k → 8 * k + 8 ≤ buf.N →
    ∃ x : Byte, getByte buf k = .ok x ∧ getField buf (8 * k) 8 = .ok x.toNat) ∧
  (∀ (n : Nat) (s w : Int), fieldInRange (zeros n) s w = true → getField (zeros n) s w = .ok 0) ∧
  (∀ (buf : BitBuffer) (s w w1 : Int), buf.wf = true → fieldInRange buf s w = true → 0 < w1 → w1 < w →
    ∃ v v1 v2, getField buf s w = .ok v ∧ getField buf s w1 = .ok v1 ∧ getField buf (s + w1) (w - w1) = .ok v2 ∧
      v = v1 ||| (v2 <<< w1.toNat))

/-! ## Codecs -/

/-- ENC.PRO.STATE (rules R81, R82, R98, R120, R123, R128): the place of every one of the 56 bits. -/
def Obligations.EncProStateLaysOutRecord : Prop :=
  ∀ (r : JoystickState) (s : State), s.cur = none →
    ∃ B : BitBuffer, exec (.encProState r) s = .next (s.returned (.buffer B) []) ∧ B.N = 56 ∧ B.bytes.length = 7 ∧
      rawField B 0 8 = r.x.toNat % 256 ∧ rawField B 16 2 = r.x.toNat / 256 % 4 ∧
      rawField B 8 8 = r.y.toNat % 256 ∧ rawField B 18 2 = r.y.toNat / 256 % 4 ∧
      rawField B 24 8 = r.z.toNat % 256 ∧ rawField B 22 2 = r.z.toNat / 256 % 4 ∧
      rawField B 20 2 = 0 ∧ rawField B 32 4 = proHat1Code r.hat1 ∧
      rawBit B 36 = r.hat2.getLsbD 3 ∧ rawBit B 37 = r.hat2.getLsbD 0 ∧ rawBit B 38 = r.hat2.getLsbD 1 ∧
      rawBit B 39 = r.hat2.getLsbD 2 ∧
      rawBit B 40 = r.trigger1 ∧ rawBit B 41 = r.fire ∧ rawBit B 42 = r.a ∧ rawBit B 43 = r.c ∧
      rawBit B 44 = r.trigger2 ∧ rawBit B 45 = decide (r.mode = .mode1) ∧ rawBit B 46 = decide (r.mode = .mode2) ∧
      rawBit B 47 = decide (r.mode = .mode3) ∧ rawBit B 48 = r.b ∧ rawBit B 49 = r.pinkie ∧ rawBit B 50 = r.t1 ∧
      rawBit B 51 = r.t2 ∧ rawBit B 52 = r.t3 ∧ rawBit B 53 = r.t4 ∧ rawBit B 54 = r.t5 ∧ rawBit B 55 = r.t6

/-- DEC.PRO.STATE (rules R81, R121): of a buffer of at least 56 bits, the record its fields name, and `OK` true. -/
def Obligations.DecProStateReadsFields : Prop :=
  ∀ (buf : BitBuffer) (s : State), 56 ≤ buf.N → s.cur = none →
    exec (.decProState buf) s = .next { s.returned (.state (proStateOf s.cfg buf) true) [] with ok := true }

/-- ENC.PRO.CFG (rules R86 to R88, R125, R128): the place of every one of the 19 bits; the pad bits are 0. -/
def Obligations.EncProCfgLaysOutRecord : Prop :=
  ∀ (r : ProConfig) (s : State), s.cur = none →
    ∃ B : BitBuffer, exec (.encProCfg r) s = .next (s.returned (.buffer B) []) ∧ B.N = 19 ∧ B.bytes.length = 3 ∧
      rawField B 0 5 = r.brightness.toNat % 32 ∧ rawBit B 5 = r.pov1Blink ∧
      rawField B 6 2 = ledEncode s.cfg.ledCode r.buttonALed ∧ rawField B 8 2 = ledEncode s.cfg.ledCode r.pov2Led ∧
      rawBit B 10 = !r.fireLed ∧ rawField B 11 2 = ledEncode s.cfg.ledCode r.buttonBLed ∧
      rawField B 13 2 = ledEncode s.cfg.ledCode r.t1t2Led ∧ rawField B 15 2 = ledEncode s.cfg.ledCode r.t3t4Led ∧
      rawField B 17 2 = ledEncode s.cfg.ledCode r.t5t6Led ∧ rawField B 19 5 = 0

/-- DEC.PRO.CFG (rules R86, R126): of a buffer of at least 19 bits, the record its fields name, and `OK` true. -/
def Obligations.DecProCfgReadsFields : Prop :=
  ∀ (buf : BitBuffer) (s : State), 19 ≤ buf.N → s.cur = none →
    exec (.decProCfg buf) s = .next { s.returned (.proConfig (proConfigOf s.cfg buf) true) [] with ok := true }

/-- ENC.STD.STATE (rules R90, R91, R95, R140, R150): the place of every one of the 64 bits; byte 7 is the XOR of bytes 0
to 6. That the encode writes the checksum is the spec's reading (D45, C8). -/
def Obligations.EncStdStateLaysOutRecord : Prop :=
  ∀ (r : JoystickState) (s : State), s.cur = none →
    ∃ B : BitBuffer, exec (.encStdState r) s = .next (s.returned (.buffer B) []) ∧ B.N = 64 ∧ B.bytes.length = 8 ∧
      rawField B 0 8 = r.x.toNat % 256 ∧ rawField B 16 3 = r.x.toNat / 256 % 8 ∧
      rawField B 8 8 = r.y.toNat % 256 ∧ rawField B 19 3 = r.y.toNat / 256 % 8 ∧
      rawField B 24 8 = r.z.toNat % 256 ∧ rawField B 22 2 = r.z.toNat / 256 % 4 ∧
      rawField B 32 4 = stdHat1Code r.hat1 ∧ rawField B 36 4 = r.hat2.toNat ∧
      rawBit B 40 = r.trigger1 ∧ rawBit B 41 = r.trigger2 ∧ rawBit B 42 = r.fire ∧ rawBit B 43 = r.a ∧
      rawBit B 44 = r.b ∧ rawBit B 45 = r.c ∧ rawBit B 46 = r.pinkie ∧ rawBit B 47 = decide (r.mode = .mode1) ∧
      rawBit B 48 = r.t1 ∧ rawBit B 49 = r.t2 ∧ rawBit B 50 = r.t3 ∧ rawBit B 51 = r.t4 ∧ rawBit B 52 = r.t5 ∧
      rawBit B 53 = r.t6 ∧ rawField B 54 2 = stdModeField r.mode ∧ rawByte B 7 = xorOfSeven B

/-- DEC.STD.STATE (rules R90, R95, R141, R146): of a buffer with 8 backing bytes, the record and `OK` true exactly when
byte 7 is the XOR of bytes 0 to 6; else `OK` is false and nothing is said of the record (U5, log entry 8). -/
def Obligations.DecStdStateTestsChecksum : Prop :=
  ∀ (buf : BitBuffer) (s : State), 57 ≤ buf.N → s.cur = none → decodedStd (.decStdState buf) buf s

/-- ENC.STD.CFG and DEC.STD.CFG (rules R148, R149). -/
def Obligations.StdConfigCodec : Prop :=
  (∀ (r : StdConfig) (s : State), s.cur = none →
    ∃ B : BitBuffer, exec (.encStdCfg r) s = .next (s.returned (.buffer B) []) ∧ B.N = 8 ∧ B.bytes.length = 1 ∧
      rawField B 0 7 = r.brightness.toNat % 128 ∧ rawBit B 7 = r.pov1Blink) ∧
  (∀ (buf : BitBuffer) (s : State), 8 ≤ buf.N → s.cur = none →
    exec (.decStdCfg buf) s = .next { s.returned (.stdConfig (stdConfigOf buf) true) [] with ok := true }) ∧
  (∀ (buf : BitBuffer) (s t : State) (r : StdConfig), buf.wf = true → buf.N = 8 → s.cur = none →
    exec (.decStdCfg buf) s = .next t → t.result = .stdConfig r true →
    exec (.encStdCfg r) t = .next (t.returned (.buffer buf) [])) ∧
  (∀ (r : StdConfig) (a : Args), decode (.op 0x22 { a with stdCfg := r }) = .ok (.encStdCfg r)) ∧
  (∀ (buf : BitBuffer) (a : Args), buf.wf = true → decode (.op 0x23 { a with buf := buf }) = .ok (.decStdCfg buf))

/-- CHECKSUM (rule R145): operation code 0x24; the XOR of bytes 0 to 6, and byte 7 is not read. -/
def Obligations.ChecksumIsXorOfSevenBytes : Prop :=
  (∀ (buf : BitBuffer) (s : State), 49 ≤ buf.N → s.cur = none →
    exec (.checksum buf) s = .next (s.returned (.byte (xorOfSeven buf)) [])) ∧
  (∀ (buf : BitBuffer) (a : Args), buf.wf = true → decode (.op 0x24 { a with buf := buf }) = .ok (.checksum buf))

/-- A buffer that misses bits or bytes a decode or CHECKSUM reads raises RangeFault (rules R105, R121, R226): the Pro and
config decodes under 56, 19 and 8 bits, DEC.STD.STATE without byte 7 (at most 56 bits), CHECKSUM without byte 6 (at most 48
bits); buffers of 57 to 63 and of 49 to 63 bits have every byte those two read. Which access faults first (byte 7, and the
first missing byte) follows the order of the pseudocode of R141 and R145: log entry 29 (DEDUCED). -/
def Obligations.ShortBufferRaisesRangeFault : Prop :=
  ∀ (buf : BitBuffer) (s : State), s.cur = none →
    (buf.N < 56 → ∃ x, exec (.decProState buf) s = .fault (.rangeFault ⟨x, buf.N⟩)) ∧
    (buf.N < 19 → ∃ x, exec (.decProCfg buf) s = .fault (.rangeFault ⟨x, buf.N⟩)) ∧
    (buf.N < 8 → ∃ x, exec (.decStdCfg buf) s = .fault (.rangeFault ⟨x, buf.N⟩)) ∧
    (buf.N ≤ 56 → exec (.decStdState buf) s = .fault (.rangeFault ⟨.getByte 7, buf.N⟩)) ∧
    (buf.N ≤ 48 →
      exec (.checksum buf) s = .fault (.rangeFault ⟨.getByte (((buf.N + 7) / 8 : Nat) : Int), buf.N⟩))

/-- The hat, mode and colour tables (rules R21, R23, R83, R84, R88, R92, R93, R99, R122, R124, R142, R144). The reserved
hat codes and mode patterns are parameters, each at its own place (U1 to U3); that their defaults are NoDirection and
Undefined is the spec's choice (R99, D27, D28), that an invalid Direction has code 0 too (D27). Each colour has its own
code of `LED_CODE`; that the default is the listing order is the spec's choice (D23). -/
def Obligations.HatModeAndColourTables : Prop :=
  (∀ c : Config, (List.range 9).map (proHat1Dir c) = [0, 2, 3, 1, 9, 8, 12, 4, 6]) ∧
  (∀ c : Config, (List.range 9).map (stdHat1Dir c) = [0, 8, 9, 1, 3, 2, 6, 4, 12]) ∧
  (∀ c : Config, [9, 10, 11, 12, 13, 14, 15].map (proHat1Dir c) =
    [c.hat1Reserved.c9, c.hat1Reserved.c10, c.hat1Reserved.c11, c.hat1Reserved.c12, c.hat1Reserved.c13,
      c.hat1Reserved.c14, c.hat1Reserved.c15]) ∧
  (∀ c : Config, [9, 10, 11, 12, 13, 14, 15].map (stdHat1Dir c) =
    [c.hat1Reserved.c9, c.hat1Reserved.c10, c.hat1Reserved.c11, c.hat1Reserved.c12, c.hat1Reserved.c13,
      c.hat1Reserved.c14, c.hat1Reserved.c15]) ∧
  (∀ (c : Config) (d : Direction), validDirection d = true →
    proHat1Dir c (proHat1Code d) = d ∧ stdHat1Dir c (stdHat1Code d) = d) ∧
  (∀ d : Direction, validDirection d = false → proHat1Code d = 0 ∧ stdHat1Code d = 0) ∧
  (∀ r d l u : Bool, (directionOf r d l u).getLsbD 0 = r ∧ (directionOf r d l u).getLsbD 1 = d ∧
    (directionOf r d l u).getLsbD 2 = l ∧ (directionOf r d l u).getLsbD 3 = u) ∧
  (∀ c : Config, proMode c true false false = .mode1 ∧ proMode c false true false = .mode2 ∧
    proMode c false false true = .mode3 ∧ proMode c false false false = .undefined ∧
    proMode c true true false = c.proModeMulti.m45m46 ∧ proMode c true false true = c.proModeMulti.m45m47 ∧
    proMode c false true true = c.proModeMulti.m46m47 ∧ proMode c true true true = c.proModeMulti.m45m46m47) ∧
  (∀ c : Config, stdMode c true 0 = .mode1 ∧ stdMode c false 0 = .undefined ∧ stdMode c false 1 = .mode2 ∧
    stdMode c false 2 = .mode3 ∧ ∀ m, stdMode c m 3 = .undefined) ∧
  (∀ c : Config, c.stdModeM47 = true → stdMode c true 1 = .mode2 ∧ stdMode c true 2 = .mode3) ∧
  ([Mode.undefined, .mode1, .mode2, .mode3].map stdModeField = [0, 0, 1, 2]) ∧
  (∀ l : LedCode, [LedColor.amber, .green, .red, .off].map (ledEncode l) =
    [l.amber.toNat, l.green.toNat, l.red.toNat, l.off.toNat]) ∧
  (∀ l : LedCode, l.wf = true →
    [l.amber.toNat, l.green.toNat, l.red.toNat, l.off.toNat].map (ledDecode l) = [.amber, .green, .red, .off]) ∧
  ([LedColor.amber, .green, .red, .off].map (ledEncode .listing) = [0, 1, 2, 3] ∧
    [0, 1, 2, 3].map (ledDecode .listing) = [LedColor.amber, .green, .red, .off]) ∧
  (ReservedHats.noDirection = ⟨0, 0, 0, 0, 0, 0, 0⟩ ∧
    MultiModes.allUndefined = ⟨.undefined, .undefined, .undefined, .undefined⟩) ∧
  (∀ (l : LedCode) (x : LedColor), l.wf = true → ledDecode l (ledEncode l x) = x)

/-- Rule R130, forward: decoding the encoding of a valid Pro record gives the record back, for every LED code that is a
bijection. -/
def Obligations.ProRecordsRoundTrip : Prop :=
  (∀ (r : JoystickState) (s u : State), validProState r = true → s.cur = none → u.cur = none →
    ∃ B, exec (.encProState r) s = .next (s.returned (.buffer B) []) ∧
      exec (.decProState B) u = .next { u.returned (.state r true) [] with ok := true }) ∧
  (∀ (r : ProConfig) (s u : State), validProConfig r = true → s.cfg.ledCode.wf = true →
    u.cfg.ledCode = s.cfg.ledCode → s.cur = none → u.cur = none →
    ∃ B, exec (.encProCfg r) s = .next (s.returned (.buffer B) []) ∧
      exec (.decProCfg B) u = .next { u.returned (.proConfig r true) [] with ok := true })

/-- Rule R130, backward: encoding the decoding of a 19-bit config gives its 19 bits back; of a 56-bit state it gives the
buffer back exactly when bits 20 and 21 are 0, the hat code is at most 8, and at most one mode bit is set. The premises on
the reserved codes are the spec's defaults of U1 and U2. -/
def Obligations.ProDecodeThenEncode : Prop :=
  (∀ (B : BitBuffer) (s t : State) (r : JoystickState), B.wf = true → B.N = 56 → s.cur = none →
    s.cfg.hat1Reserved = .noDirection → s.cfg.proModeMulti = .allUndefined →
    exec (.decProState B) s = .next t → t.result = .state r true →
    (exec (.encProState r) t = .next (t.returned (.buffer B) []) ↔
      rawBit B 20 = false ∧ rawBit B 21 = false ∧ rawField B 32 4 ≤ 8 ∧
        ¬(rawBit B 45 = true ∧ rawBit B 46 = true) ∧ ¬(rawBit B 45 = true ∧ rawBit B 47 = true) ∧
        ¬(rawBit B 46 = true ∧ rawBit B 47 = true))) ∧
  (∀ (B : BitBuffer) (s t : State) (r : ProConfig), B.wf = true → B.N = 19 → s.cur = none →
    s.cfg.ledCode.wf = true → exec (.decProCfg B) s = .next t → t.result = .proConfig r true →
    ∃ C, exec (.encProCfg r) t = .next (t.returned (.buffer C) []) ∧ C.N = 19 ∧
      ∀ i : Nat, i < 19 → rawBit C i = rawBit B i)

/-- Rule R151, forward: decoding the encoding of a valid Std record gives the record back, and the frame is valid. -/
def Obligations.StdRecordsRoundTrip : Prop :=
  (∀ (r : JoystickState) (s u : State), validStdState r = true → s.cur = none → u.cur = none →
    ∃ B, exec (.encStdState r) s = .next (s.returned (.buffer B) []) ∧
      exec (.decStdState B) u = .next { u.returned (.state r true) [] with ok := true }) ∧
  (∀ (r : StdConfig) (s u : State), validStdConfig r = true → s.cur = none → u.cur = none →
    ∃ B, exec (.encStdCfg r) s = .next (s.returned (.buffer B) []) ∧
      exec (.decStdCfg B) u = .next { u.returned (.stdConfig r true) [] with ok := true })

/-- Rule R151, backward: encoding the decoding of a valid 64-bit frame gives the frame back exactly when its hat code is at
most 8, its mode field is not 3, and bit 47 is 0 whenever the mode field is not 0. The premises on the reserved codes are
the spec's defaults of U1 and U3. -/
def Obligations.StdDecodeThenEncode : Prop :=
  ∀ (B : BitBuffer) (s t : State) (r : JoystickState), B.wf = true → B.N = 64 → s.cur = none →
    s.cfg.hat1Reserved = .noDirection → s.cfg.stdModeM47 = true → rawByte B 7 = xorOfSeven B →
    exec (.decStdState B) s = .next t → t.result = .state r true →
    (exec (.encStdState r) t = .next (t.returned (.buffer B) []) ↔
      rawField B 32 4 ≤ 8 ∧ rawField B 54 2 ≠ 3 ∧ (rawField B 54 2 ≠ 0 → rawBit B 47 = false))

/-- Rule R146: flipping any one of the 64 bits of a valid Std frame makes the decode report failure. -/
def Obligations.EverySingleBitErrorDetected : Prop :=
  ∀ (B : BitBuffer) (s : State) (i : Nat), B.wf = true → B.N = 64 → rawByte B 7 = xorOfSeven B → i < 64 →
    s.cur = none →
    ∃ rec, exec (.decStdState (rawPutBit B i (!rawBit B i))) s =
      .next { s.returned (.state rec false) [] with ok := false, free := s.free + 1 }

/-- The four wire formats (rules R60, R81, R86, R90, R96): a wire word stands for the record its fields name, word bit `k`
being buffer bit `k`. That a raw word can be presented at all is the model's choice (log entry 3). -/
def Obligations.WireWordsAreReadAsRecords : Prop :=
  (∀ (w : BitVec 56) (s : State), s.cur = none →
    ∃ B : BitBuffer, B.N = 56 ∧ (∀ k, k < 56 → rawBit B k = w.getLsbD k) ∧
      exec (.wireProState w) s = .next { s.returned (.state (proStateOf s.cfg B) true) [] with ok := true }) ∧
  (∀ (w : BitVec 19) (s : State), s.cur = none →
    ∃ B : BitBuffer, B.N = 19 ∧ (∀ k, k < 19 → rawBit B k = w.getLsbD k) ∧
      exec (.wireProCfg w) s = .next { s.returned (.proConfig (proConfigOf s.cfg B) true) [] with ok := true }) ∧
  (∀ (w : BitVec 64) (s : State), s.cur = none →
    ∃ B : BitBuffer, B.N = 64 ∧ (∀ k, k < 64 → rawBit B k = w.getLsbD k) ∧ decodedStd (.wireStdState w) B s) ∧
  (∀ (w : BitVec 8) (s : State), s.cur = none →
    ∃ B : BitBuffer, B.N = 8 ∧ (∀ k, k < 8 → rawBit B k = w.getLsbD k) ∧
      exec (.wireStdCfg w) s = .next { s.returned (.stdConfig (stdConfigOf B) true) [] with ok := true })

/-! ## Timing -/

/-- DEADLINE and EXPIRED (rules R160, R161): one `clock_read` each; the sum modulo 2^32; the sign of the wrapped
difference. That a difference of 0 is expired is the spec's choice (D4). -/
def Obligations.DeadlineAndExpired : Prop :=
  (∀ (us : Word) (s : State), s.cur = none →
    exec (.deadline us) s = .next (s.returned (.time (s.now + us)) [.clockRead s.now])) ∧
  (∀ (dl : Word) (s : State), s.cur = none →
    exec (.expired dl) s = .next (s.returned (.flag (decide ((dl - s.now).toInt ≤ 0))) [.clockRead s.now]))

/-- Rules R161 and R165: for a duration below 2^31 tested less than 2^31 µs after it was computed, EXPIRED says whether the
duration has passed, across every wrap of the clock; a duration of at least 2^31 is expired at once. -/
def Obligations.DeadlineSurvivesClockWrap : Prop :=
  ∀ (us : Word) (s u : State) (e : Nat), s.cur = none → u.cur = none → u.now = s.now + BitVec.ofNat 32 e →
    (us.toNat < 2 ^ 31 → e < 2 ^ 31 →
      exec (.expired (s.now + us)) u =
        .next (u.returned (.flag (decide (us.toNat ≤ e))) [.clockRead u.now])) ∧
    (2 ^ 31 ≤ us.toNat → e ≤ us.toNat - 2 ^ 31 →
      exec (.expired (s.now + us)) u = .next (u.returned (.flag true) [.clockRead u.now]))

/-- WAITPIN (rules R162, R163), every place: the pin is read first, so a level that is there is accepted whatever the
deadline, with one `pin_read` and no `clock_read`; the deadline is tested second; only an instance that is not BUSY
sleeps. -/
def Obligations.WaitPinReadsThenTests : Prop :=
  ∀ (p : InPin) (v : Bool) (dl : Word) (s : State),
    (s.cur = none → wireLevel p s = v →
      exec (.waitPin p v dl) s = .next (s.returned (.flag true) [.pinRead p v])) ∧
    (s.cur = none → wireLevel p s = !v →
      exec (.waitPin p v dl) s =
        .next (s.started (.waitPin p v dl) .idle 0 (.first .test) [.pinRead p (!v)])) ∧
    (s.runsAt (.waitPin p v dl) (.first .read) → wireLevel p s = v →
      exec (.waitPin p v dl) s = .next (s.ends (.flag true) (.pinRead p v))) ∧
    (s.runsAt (.waitPin p v dl) (.first .read) → wireLevel p s = !v →
      exec (.waitPin p v dl) s = .next { s.called (.pinRead p (!v)) with sub := .first .test }) ∧
    (s.runsAt (.waitPin p v dl) (.first .test) → expiredAt dl s.now = true →
      exec (.waitPin p v dl) s = .next (s.ends (.flag false) (.clockRead s.now))) ∧
    (s.runsAt (.waitPin p v dl) (.first .test) → expiredAt dl s.now = false →
      exec (.waitPin p v dl) s =
        .next { s.called (.clockRead s.now) with sub := .first (if s.cfg.busy then .read else .sleep) }) ∧
    (s.runsAt (.waitPin p v dl) (.first .sleep) →
      exec (.waitPin p v dl) s =
        .next { s.called (.delayUs s.cfg.pollSleep) with
          delayLeft := s.cfg.pollSleep.toNat, sub := .first .read })

/-! ## The PulseWaiter -/

/-- WAITPULSE.POLL (rules R172, R173), every place, on a Std JoystickClient with the polling waiter: the trigger once, then
the drop, then the return to idle. That a call of HOST's own needs no Setup and that its trigger may be empty is log entry
27 (DESIGN CHOICE); that the start with an empty trigger is a step that makes no call is log entry 12 (DESIGN CHOICE). -/
def Obligations.WaitPulsePollSeesDropThenReturn : Prop :=
  ∀ (dl : Word) (s : State),
    (∀ i, i = .waitPulsePoll dl .none → s.cur = none → isInstance s.cfg .std .joystickClient = true →
      s.cfg.waiter = .polling → s.cfg.stdStrict = false →
      exec i s = .next (s.started i .idle 0 (.first .read) [])) ∧
    (∀ i, i = .waitPulsePoll dl .toggleReq → s.cur = none → isInstance s.cfg .std .joystickClient = true →
      s.cfg.waiter = .polling → s.cfg.stdStrict = false →
      exec i s = .next
        { s.started i .idle 0 (.first .read) [.pinWrite .ctlOut (!s.req)] with req := !s.req, outCtl := !s.req }) ∧
    ∀ (tr : Trigger) (i : Instr), i = .waitPulsePoll dl tr →
      (s.runsAt i (.first .read) →
        exec i s = .next
          { s.called (.pinRead .ctlIn s.wCtlIn) with sub := if s.wCtlIn then .first .test else .second .read }) ∧
      (s.runsAt i (.first .test) → expiredAt dl s.now = true →
        exec i s = .next { s.ends (.pulse .notStarted) (.clockRead s.now) with pwResult := .notStarted }) ∧
      (s.runsAt i (.first .test) → expiredAt dl s.now = false →
        exec i s = .next
          { s.called (.clockRead s.now) with sub := .first (if s.cfg.busy then .read else .sleep) }) ∧
      (s.runsAt i (.second .read) → s.wCtlIn = true →
        exec i s = .next { s.ends (.pulse .finished) (.pinRead .ctlIn true) with pwResult := .finished }) ∧
      (s.runsAt i (.second .read) → s.wCtlIn = false →
        exec i s = .next { s.called (.pinRead .ctlIn false) with sub := .second .test }) ∧
      (s.runsAt i (.second .test) → expiredAt dl s.now = true →
        exec i s = .next { s.ends (.pulse .started) (.clockRead s.now) with pwResult := .started }) ∧
      (s.runsAt i (.second .test) → expiredAt dl s.now = false →
        exec i s = .next
          { s.called (.clockRead s.now) with sub := .second (if s.cfg.busy then .read else .sleep) }) ∧
      (s.runsAt i (.first .sleep) →
        exec i s = .next
          { s.called (.delayUs s.cfg.pollSleep) with
            delayLeft := s.cfg.pollSleep.toNat, sub := .first .read }) ∧
      (s.runsAt i (.second .sleep) →
        exec i s = .next
          { s.called (.delayUs s.cfg.pollSleep) with
            delayLeft := s.cfg.pollSleep.toNat, sub := .second .read })

/-- WAITPULSE.IRQ (rules R172, R174, R175), every place, on a Std JoystickClient with the interrupt-counted waiter: the
snapshot, the trigger once, then the counter before the deadline, and on timeout the level of CTL_IN. Which level gives
which result on timeout is the spec's choice (D21). That a call of HOST's own needs no Setup and that its trigger may be
empty is log entry 27 (DESIGN CHOICE); that an empty trigger is a step that makes no call is log entry 12 (DESIGN
CHOICE). -/
def Obligations.WaitPulseIrqCountsEdges : Prop :=
  ∀ (dl : Word) (tr : Trigger) (s : State) (i : Instr), i = .waitPulseIrq dl tr →
    (s.cur = none → isInstance s.cfg .std .joystickClient = true → s.cfg.waiter = .interruptCounted →
      s.cfg.stdStrict = false →
      exec i s = .next { s.started i .idle 0 .trigger [.counterRead s.edgeCnt] with baseCnt := s.edgeCnt }) ∧
    (s.runsAt i .trigger → tr = .none → exec i s = .next { s with sub := .count .count }) ∧
    (s.runsAt i .trigger → tr = .toggleReq →
      exec i s = .next
        { s.called (.pinWrite .ctlOut (!s.req)) with req := !s.req, outCtl := !s.req, sub := .count .count }) ∧
    (s.runsAt i (.count .count) → s.edgeCnt - s.baseCnt = 0 →
      exec i s = .next { s.called (.counterRead s.edgeCnt) with sub := .count .test }) ∧
    (s.runsAt i (.count .count) → s.edgeCnt - s.baseCnt = 1 →
      exec i s = .next { s.ends (.pulse .finished) (.counterRead s.edgeCnt) with pwResult := .finished }) ∧
    (s.runsAt i (.count .count) → 2 ≤ (s.edgeCnt - s.baseCnt).toNat →
      exec i s = .next { s.ends (.pulse .tooMany) (.counterRead s.edgeCnt) with pwResult := .tooMany }) ∧
    (s.runsAt i (.count .test) → expiredAt dl s.now = true →
      exec i s = .next { s.called (.clockRead s.now) with sub := .count .pin }) ∧
    (s.runsAt i (.count .test) → expiredAt dl s.now = false →
      exec i s = .next { s.called (.clockRead s.now) with sub := .count (if s.cfg.busy then .count else .sleep) }) ∧
    (s.runsAt i (.count .pin) → s.wCtlIn = true →
      exec i s = .next { s.ends (.pulse .notStarted) (.pinRead .ctlIn true) with pwResult := .notStarted }) ∧
    (s.runsAt i (.count .pin) → s.wCtlIn = false →
      exec i s = .next { s.ends (.pulse .started) (.pinRead .ctlIn false) with pwResult := .started }) ∧
    (s.runsAt i (.count .sleep) →
      exec i s = .next
        { s.called (.delayUs s.cfg.pollSleep) with
          delayLeft := s.cfg.pollSleep.toNat, sub := .count .count })

/-- EDGECB (rule R177): one pending edge is counted, at any place of any operation, and nothing else changes; with none
pending it is not enabled. -/
def Obligations.EdgeCallbackCountsOneEdge : Prop :=
  ∀ s : State,
    (0 < s.edgePending →
      exec .edgeCb s = .next { s with edgePending := s.edgePending - 1, edgeCnt := s.edgeCnt + 1 }) ∧
    (s.edgePending = 0 → exec .edgeCb s = .next s)

/-- Rules R71, R73, R177: edges are never merged, dropped or invented. Over any turn that is not the one that zeroes the
counter in a Setup, and is no construction, counted plus pending edges (modulo 2^32) grow by one if PEER makes CTL_IN
fall while the callback is attached, and else stay as they are. -/
def Obligations.EdgesAreNeverLost : Prop :=
  ∀ (e : Event) (s t : State), s.inv = true → turn e s = .next t →
    ¬(e = .engine ∧ s.cur = some .setupStdJc ∧ s.sub = .seq 6) → (∀ c, e ≠ .construct c) →
    t.edgeCnt + BitVec.ofNat 32 t.edgePending =
      s.edgeCnt + BitVec.ofNat 32 s.edgePending +
        (if e = .peerCtl false ∧ s.attached = true ∧ s.wCtlIn = true then 1 else 0)

/-! ## Setup and the peeks -/

/-- SETUP.PRO.JC and SETUP.PRO.TC (rule R183): the first call, and the whole run of six calls, each latch before its
direction (the order is the spec's choice, D35). -/
def Obligations.SetupProDrivesIdleLevels : Prop :=
  ∀ (i : Instr) (role : Role) (s : State),
    (i = .setupProJc ∧ role = .joystickClient ∨ i = .setupProTc ∧ role = .throttleClient) →
    isInstance s.cfg .pro role = true → s.cur = none →
    exec i s = .next { s.started i .idle 0 (.seq 1) [.pinWrite .ctlOut false] with outCtl := false } ∧
    execSteps i 6 s = .next
      { s.returned .nothing
          [.pinMode (.inp .dataIn) .input, .pinMode (.inp .ctlIn) .input, .pinMode (.out .dataOut) .output,
            .pinWrite .dataOut false, .pinMode (.out .ctlOut) .output, .pinWrite .ctlOut false] with
        outCtl := false, outData := false, dirCtlOut := .output, dirDataOut := .output, dirCtlIn := .input,
        dirDataIn := .input, setupDone := true }

/-- SETUP.STD.JC and SETUP.STD.TC (rules R203, R204): the first call and the whole run. The pulse line idles high; with the
interrupt-counted waiter the counter is zeroed and the callback attached, by a second Setup not again (D35, D36). -/
def Obligations.SetupStdDrivesIdleLevels : Prop :=
  ∀ s : State, s.cur = none → s.cfg.stdStrict = false →
    (isInstance s.cfg .std .throttleClient = true →
      exec .setupStdTc s =
        .next { s.started .setupStdTc .idle 0 (.seq 1) [.pinWrite .ctlOut true] with outCtl := true } ∧
      execSteps .setupStdTc 6 s = .next
        { s.returned .nothing
            [.pinMode (.inp .dataIn) .input, .pinMode (.inp .ctlIn) .input, .pinMode (.out .dataOut) .output,
              .pinWrite .dataOut false, .pinMode (.out .ctlOut) .output, .pinWrite .ctlOut true] with
          outCtl := true, outData := false, dirCtlOut := .output, dirDataOut := .output, dirCtlIn := .input,
          dirDataIn := .input, setupDone := true, req := false }) ∧
    (isInstance s.cfg .std .joystickClient = true →
      exec .setupStdJc s =
        .next { s.started .setupStdJc .idle 0 (.seq 1) [.pinWrite .ctlOut false] with outCtl := false }) ∧
    (isInstance s.cfg .std .joystickClient = true → s.cfg.waiter = .polling →
      execSteps .setupStdJc 6 s = .next
        { s.returned .nothing
            [.pinMode (.inp .dataIn) .input, .pinMode (.inp .ctlIn) .input, .pinMode (.out .dataOut) .output,
              .pinWrite .dataOut false, .pinMode (.out .ctlOut) .output, .pinWrite .ctlOut false] with
          outCtl := false, outData := false, dirCtlOut := .output, dirDataOut := .output, dirCtlIn := .input,
          dirDataIn := .input, setupDone := true, req := false }) ∧
    (isInstance s.cfg .std .joystickClient = true → s.cfg.waiter = .interruptCounted → s.attached = false →
      execSteps .setupStdJc 8 s = .next
        { s.returned .nothing
            [.attachFalling .ctlIn, .pinMode (.inp .dataIn) .input, .pinMode (.inp .ctlIn) .input,
              .pinMode (.out .dataOut) .output, .pinWrite .dataOut false, .pinMode (.out .ctlOut) .output,
              .pinWrite .ctlOut false] with
          outCtl := false, outData := false, dirCtlOut := .output, dirDataOut := .output, dirCtlIn := .input,
          dirDataIn := .input, setupDone := true, req := false, edgeCnt := 0, edgePending := 0,
          attached := true }) ∧
    (isInstance s.cfg .std .joystickClient = true → s.cfg.waiter = .interruptCounted → s.attached = true →
      execSteps .setupStdJc 7 s = .next
        { s.returned .nothing
            [.pinMode (.inp .dataIn) .input, .pinMode (.inp .ctlIn) .input, .pinMode (.out .dataOut) .output,
              .pinWrite .dataOut false, .pinMode (.out .ctlOut) .output, .pinWrite .ctlOut false] with
          outCtl := false, outData := false, dirCtlOut := .output, dirDataOut := .output, dirCtlIn := .input,
          dirDataIn := .input, setupDone := true, req := false, edgeCnt := 0, edgePending := 0 })

/-- PEEK.PRO (rule R184): CTL_IN, then DATA_IN; true if both read 0 (the spec's definition, D22). PEEK.STD (rule R205): one
read; true if the request line is high. -/
def Obligations.PeeksReadTheInputs : Prop :=
  (∀ s : State, s.cur = none → isInstance s.cfg .pro .throttleClient = true → s.setupDone = true →
    exec .peekPro s = .next (s.started .peekPro .idle 0 (.peeked s.wCtlIn) [.pinRead .ctlIn s.wCtlIn])) ∧
  (∀ (s : State) (ctl : Bool), s.runsAt .peekPro (.peeked ctl) →
    exec .peekPro s = .next (s.ends (.flag (!ctl && !s.wDataIn)) (.pinRead .dataIn s.wDataIn))) ∧
  (∀ s : State, s.cur = none → isInstance s.cfg .std .throttleClient = true → s.cfg.stdStrict = false →
    s.setupDone = true →
    exec .peekStd s = .next (s.returned (.flag s.wCtlIn) [.pinRead .ctlIn s.wCtlIn]))

/-! ## The Pro engine -/

/-- SEND.PRO (rules R181, R185 to R188), label by label: what each next primitive call is and what it changes; `i` is the
operation. The outer deadline takes a wait of 2^31 and more as 0 (rule R165), where R185 adds every wait: log entry 19
(DEDUCED). The handshake's shape is the spec's choice (D7 to D9). -/
def Obligations.SendProFollowsItsLabels : Prop :=
  ∀ (st : JoystickState) (wait : Word) (s : State) (i : Instr), i = .sendPro st wait →
    (s.cur = none → isInstance s.cfg .pro .throttleClient = true → s.setupDone = true →
      exec i s = .next
        { s.started i .a 0 .start [.clockRead s.now] with
          txbuf := encProState st, rxbuf := ⟨19, [0, 0, 0]⟩, dl := s.now + (if wait.toNat < 2 ^ 31 then wait else 0) }) ∧
    (s.standsAt i .a .start → s.txbuf.N = 56 → s.cyc.toNat ≤ 55 →
      exec i s = .next
        { s.called (.pinWrite .dataOut (rawBit s.txbuf s.cyc.toNat)) with
          outData := rawBit s.txbuf s.cyc.toNat, phase := .b }) ∧
    (s.standsAt i .a .start → 56 ≤ s.cyc.toNat →
      exec i s = .next { s.called (.pinWrite .dataOut false) with outData := false, phase := .b }) ∧
    (s.standsAt i .b .start →
      exec i s = .next
        { s.called (.pinWrite .ctlOut true) with outCtl := true, phase := .c, sub := .first .read }) ∧
    waitsFor true i .c .first (fun s => { s with phase := .d, sub := .start })
      (if s.cyc = 0 then .noPeer else .peerUnresponsive) s ∧
    (s.standsAt i .d .start → 1 ≤ s.cyc.toNat ∧ s.cyc.toNat ≤ 55 → s.cfg.proStrict = true → s.wDataIn = false →
      exec i s = .next (fails .desync (s.called (.pinRead .dataIn false)))) ∧
    (s.standsAt i .d .start → s.cyc.toNat = 56 → s.wDataIn = true →
      exec i s = .next (fails .desync (s.called (.pinRead .dataIn true)))) ∧
    (s.standsAt i .d .start →
      (s.cyc.toNat = 0 ∨ 1 ≤ s.cyc.toNat ∧ s.cyc.toNat ≤ 55 ∧ (s.cfg.proStrict = false ∨ s.wDataIn = true) ∨
        s.cyc.toNat = 56 ∧ s.wDataIn = false) →
      exec i s = .next { s.called (.pinRead .dataIn s.wDataIn) with phase := .e }) ∧
    (s.standsAt i .d .start → s.rxbuf.N = 19 → 57 ≤ s.cyc.toNat → s.cyc.toNat ≤ 75 →
      exec i s = .next
        { s.called (.pinRead .dataIn s.wDataIn) with
          rxbuf := rawPutBit s.rxbuf (s.cyc.toNat - 57) s.wDataIn, phase := .e }) ∧
    (s.standsAt i .e .start →
      exec i s = .next
        { s.called (.pinWrite .ctlOut false) with outCtl := false, phase := .f, sub := .first .read }) ∧
    (s.cyc = 0 → waitsFor false i .f .first (fun s => { s with sub := .deadline }) .peerUnresponsive s) ∧
    (1 ≤ s.cyc.toNat → s.cyc.toNat < 75 →
      waitsFor false i .f .first (fun s => { s with phase := .a, cyc := s.cyc + 1, sub := .start })
        .peerUnresponsive s) ∧
    (s.cyc.toNat = 75 →
      waitsFor false i .f .first (fun s => { s with phase := .done, sub := .start }) .peerUnresponsive s) ∧
    (s.standsAt i .f .deadline → s.cyc = 0 →
      exec i s = .next
        { s.called (.clockRead s.now) with
          dl := s.now + s.cfg.proFrameTimeout, phase := .a, cyc := 1, sub := .start }) ∧
    (s.standsAt i .done .start → s.rxbuf.N = 19 →
      exec i s = .next
        { s.ends (.code 0) (.pinWrite .dataOut false) with
          outData := false, ok := true, outProCfg := proConfigOf s.cfg s.rxbuf, err := 0
          history := ⟨.code 0, .proConfig (proConfigOf s.cfg s.rxbuf)⟩ :: s.history })

/-- POLL.PRO (rules R182, R185 to R188), label by label. The outer deadline takes a wait of 2^31 and more as 0 (rule R165),
where R185 adds every wait: log entry 19 (DEDUCED). The level of DATA_OUT in cycle 0 is the spec's choice (D8). -/
def Obligations.PollProFollowsItsLabels : Prop :=
  ∀ (r : ProConfig) (wait : Word) (s : State) (i : Instr), i = .pollPro r wait →
    (s.cur = none → isInstance s.cfg .pro .joystickClient = true → s.setupDone = true →
      exec i s = .next
        { s.started i .a 0 (.first .read) [.clockRead s.now] with
          txbuf := encProCfg s.cfg.ledCode r, rxbuf := ⟨56, [0, 0, 0, 0, 0, 0, 0]⟩
          dl := s.now + (if wait.toNat < 2 ^ 31 then wait else 0) }) ∧
    waitsFor true i .a .first (fun s => { s with phase := .b, sub := .start })
      (if s.cyc = 0 then .noPeer else .peerUnresponsive) s ∧
    (s.standsAt i .b .start → s.rxbuf.N = 56 → s.cyc.toNat ≤ 55 →
      exec i s = .next
        { s.called (.pinRead .dataIn s.wDataIn) with
          rxbuf := rawPutBit s.rxbuf s.cyc.toNat s.wDataIn, phase := .c }) ∧
    (s.standsAt i .b .start → 56 ≤ s.cyc.toNat →
      exec i s = .next { s.called (.pinRead .dataIn s.wDataIn) with phase := .c }) ∧
    (s.standsAt i .c .start → s.cyc.toNat = 0 ∨ s.cyc.toNat = 56 →
      exec i s = .next { s.called (.pinWrite .dataOut false) with outData := false, phase := .d }) ∧
    (s.standsAt i .c .start → 1 ≤ s.cyc.toNat → s.cyc.toNat ≤ 55 →
      exec i s = .next { s.called (.pinWrite .dataOut true) with outData := true, phase := .d }) ∧
    (s.standsAt i .c .start → s.txbuf.N = 19 → 57 ≤ s.cyc.toNat → s.cyc.toNat ≤ 75 →
      exec i s = .next
        { s.called (.pinWrite .dataOut (rawBit s.txbuf (s.cyc.toNat - 57))) with
          outData := rawBit s.txbuf (s.cyc.toNat - 57), phase := .d }) ∧
    (s.standsAt i .d .start →
      exec i s = .next
        { s.called (.pinWrite .ctlOut true) with outCtl := true, phase := .e, sub := .first .read }) ∧
    waitsFor false i .e .first (fun s => { s with phase := .f, sub := .start }) .peerUnresponsive s ∧
    (s.standsAt i .f .start → s.cyc = 0 →
      exec i s = .next { s.called (.pinWrite .ctlOut false) with outCtl := false, sub := .deadline }) ∧
    (s.standsAt i .f .start → 1 ≤ s.cyc.toNat → s.cyc.toNat < 75 →
      exec i s = .next
        { s.called (.pinWrite .ctlOut false) with
          outCtl := false, phase := .a, cyc := s.cyc + 1, sub := .first .read }) ∧
    (s.standsAt i .f .start → s.cyc.toNat = 75 →
      exec i s = .next { s.called (.pinWrite .ctlOut false) with outCtl := false, phase := .done }) ∧
    (s.standsAt i .f .deadline → s.cyc = 0 →
      exec i s = .next
        { s.called (.clockRead s.now) with
          dl := s.now + s.cfg.proFrameTimeout, phase := .a, cyc := 1, sub := .first .read }) ∧
    (s.standsAt i .done .start → s.rxbuf.N = 56 →
      exec i s = .next
        { s.ends (.code 0) (.pinWrite .dataOut false) with
          outData := false, ok := true, outState := proStateOf s.cfg s.rxbuf, err := 0
          history := ⟨.code 0, .state (proStateOf s.cfg s.rxbuf)⟩ :: s.history })

/-- Rule R185: two deadlines. Once a SEND.PRO or POLL.PRO runs (its launch sets the outer deadline), `DL` is replaced only
at the end of cycle 0, by the frame deadline; it is not extended. -/
def Obligations.ProDeadlineReplacedOnce : Prop :=
  ∀ (i : Instr) (s t : State), (∃ st w, i = .sendPro st w) ∨ (∃ r w, i = .pollPro r w) → s.inv = true →
    s.cur = some i → exec i s = .next t → t.dl ≠ s.dl →
    s.sub = .deadline ∧ s.phase = .f ∧ s.cyc = 0 ∧ t.phase = .a ∧ t.cyc = 1 ∧
      t.dl = s.now + s.cfg.proFrameTimeout

/-! ## The Std engine -/

/-- POLL.STD (rules R201, R207, R209), label by label: 64 samples, 65 triggers, 8 config bits, and the checksum last. The
outer deadline takes a wait of 2^31 and more as 0 (rule R165), where R207 adds every wait: log entry 19 (DEDUCED). After
a wrong checksum the output record is free (U5, log entry 8, DESIGN CHOICE). The slot structure is the spec's reading
(D15, D16). -/
def Obligations.PollStdFollowsItsLabels : Prop :=
  ∀ (r : StdConfig) (wait : Word) (s : State) (i : Instr), i = .pollStd r wait →
    (s.cur = none → isInstance s.cfg .std .joystickClient = true → s.cfg.stdStrict = false → s.setupDone = true →
      exec i s = .next
        { s.started i .p1 0 (.first .read) [.clockRead s.now] with
          txbuf := encStdCfg r, rxbuf := ⟨64, [0, 0, 0, 0, 0, 0, 0, 0]⟩, req := false
          dl := s.now + (if wait.toNat < 2 ^ 31 then wait else 0) }) ∧
    waitsFor true i .p1 .first
      (fun s => { s with
        phase := .p2, cyc := 0, sub := if s.cfg.waiter = .polling then .trigger else .snapshot }) .noPeer s ∧
    awaitsPulse i .p2
      (fun res s =>
        match res with
        | .finished => { s with sub := .deadline }
        | .notStarted => fails .noPeer s
        | _ => fails .peerUnresponsive s) s ∧
    (s.standsAt i .p2 .deadline →
      exec i s = .next
        { s.called (.clockRead s.now) with
          dl := s.now + s.cfg.stdFrameTimeout, phase := .p3, cyc := 0, sub := .start }) ∧
    (∀ p, p = .p3 ∨ p = .p4 → s.standsAt i p .start → s.rxbuf.N = 64 → s.cyc.toNat ≤ 63 →
      exec i s = .next
        { s.called (.pinRead .dataIn s.wDataIn) with
          rxbuf := rawPutBit s.rxbuf s.cyc.toNat s.wDataIn
          sub := if s.cfg.waiter = .polling then .trigger else .snapshot }) ∧
    awaitsPulse i .p3
      (fun res s =>
        match res with
        | .finished =>
          if s.cyc.toNat < 62 then { s with cyc := s.cyc + 1, sub := .start }
          else { s with phase := .p4, cyc := 63, sub := .start }
        | _ => fails .peerUnresponsive s) s ∧
    awaitsPulse i .p4
      (fun res s =>
        match res with
        | .finished => { s with phase := .p5, sub := .first .read }
        | _ => fails .peerUnresponsive s) s ∧
    waitsFor true i .p5 .first (fun s => { s with phase := .p6, cyc := 0, sub := .start }) .peerUnresponsive s ∧
    (s.standsAt i .p6 .start →
      exec i s = .next { s.called (.pinWrite .ctlOut false) with outCtl := false, req := false, sub := .seq 1 }) ∧
    (s.standsAt i .p6 (.seq 1) → s.txbuf.N = 8 → s.cyc.toNat ≤ 7 →
      exec i s = .next
        { s.called (.pinWrite .dataOut (rawBit s.txbuf s.cyc.toNat)) with
          outData := rawBit s.txbuf s.cyc.toNat, sub := .seq 2 }) ∧
    (s.standsAt i .p6 (.seq 2) →
      exec i s = .next
        { s.called (.delayUs s.cfg.stdCfgLow) with delayLeft := s.cfg.stdCfgLow.toNat, sub := .seq 3 }) ∧
    (s.standsAt i .p6 (.seq 3) →
      exec i s = .next { s.called (.pinWrite .ctlOut true) with outCtl := true, req := true, sub := .seq 4 }) ∧
    (s.standsAt i .p6 (.seq 4) → s.cyc.toNat < 7 →
      exec i s = .next
        { s.called (.delayUs s.cfg.stdCfgHigh) with
          delayLeft := s.cfg.stdCfgHigh.toNat, cyc := s.cyc + 1, sub := .start }) ∧
    (s.standsAt i .p6 (.seq 4) → s.cyc.toNat = 7 →
      exec i s = .next
        { s.called (.delayUs s.cfg.stdCfgHigh) with
          delayLeft := s.cfg.stdCfgHigh.toNat, phase := .p7, sub := .start }) ∧
    (s.standsAt i .p7 .start →
      exec i s = .next { s.called (.pinWrite .ctlOut false) with outCtl := false, req := false, sub := .seq 1 }) ∧
    (s.standsAt i .p7 (.seq 1) → s.rxbuf.N = 64 → rawByte s.rxbuf 7 = xorOfSeven s.rxbuf →
      exec i s = .next
        { s.ends (.code 0) (.pinWrite .dataOut false) with
          outData := false, ok := true, outState := stdStateOf s.cfg s.rxbuf, err := 0
          history := ⟨.code 0, .state (stdStateOf s.cfg s.rxbuf)⟩ :: s.history }) ∧
    (s.standsAt i .p7 (.seq 1) → s.rxbuf.N = 64 → rawByte s.rxbuf 7 ≠ xorOfSeven s.rxbuf →
      ∃ rec, exec i s = .next
        { s.ends (.code (failureCode .checksumFailure s.cfg)) (.pinWrite .dataOut false) with
          outData := false, ok := false, outState := rec, free := s.free + 1
          failure := some .checksumFailure, err := failureCode .checksumFailure s.cfg })

/-- SEND.STD (rules R202, R206, R207), label by label: 64 state bits, each before its pulse, the longer pulse, 8 config bits
sampled after the request line was low and then high. The outer deadline takes a wait of 2^31 and more as 0 (rule R165),
where R207 adds every wait: log entry 19 (DEDUCED). The slot structure is the spec's reading (D15, D16). -/
def Obligations.SendStdFollowsItsLabels : Prop :=
  ∀ (st : JoystickState) (wait : Word) (s : State) (i : Instr), i = .sendStd st wait →
    (s.cur = none → isInstance s.cfg .std .throttleClient = true → s.cfg.stdStrict = false → s.setupDone = true →
      exec i s = .next
        { s.started i .s1 0 (.first .read) [.clockRead s.now] with
          txbuf := encStdState st, rxbuf := ⟨8, [0]⟩, dl := s.now + (if wait.toNat < 2 ^ 31 then wait else 0) }) ∧
    waitsFor true i .s1 .first (fun s => { s with sub := .deadline }) .noPeer s ∧
    (s.standsAt i .s1 .deadline →
      exec i s = .next
        { s.called (.clockRead s.now) with
          dl := s.now + s.cfg.stdFrameTimeout, req := true, phase := .s2, cyc := 0, sub := .seq 0 }) ∧
    (∀ p, p = .s2 ∨ p = .s3 → s.standsAt i p (.seq 0) → s.txbuf.N = 64 → s.cyc.toNat ≤ 63 →
      exec i s = .next
        { s.called (.pinWrite .dataOut (rawBit s.txbuf s.cyc.toNat)) with
          outData := rawBit s.txbuf s.cyc.toNat, sub := .seq 1 }) ∧
    (s.standsAt i .s4 (.seq 0) →
      exec i s = .next { s.called (.pinWrite .dataOut false) with outData := false, sub := .seq 1 }) ∧
    (∀ p, p = .s2 ∨ p = .s3 ∨ p = .s4 → s.standsAt i p (.seq 1) →
      exec i s = .next { s.called (.pinWrite .ctlOut false) with outCtl := false, sub := .seq 2 }) ∧
    (∀ p n, p = .s2 ∧ n = s.cfg.stdConfirmPulse ∨ p = .s3 ∧ n = s.cfg.stdBitPulse ∨
        p = .s4 ∧ n = s.cfg.stdConfigPulse → s.standsAt i p (.seq 2) →
      exec i s = .next { s.called (.delayUs n) with delayLeft := n.toNat, sub := .seq 3 }) ∧
    (∀ p, p = .s2 ∨ p = .s3 → s.standsAt i p (.seq 3) → s.cyc.toNat < 63 →
      exec i s = .next
        { s.called (.pinWrite .ctlOut true) with
          outCtl := true, req := !s.req, phase := .s3, cyc := s.cyc + 1, sub := .first .read }) ∧
    (s.standsAt i .s3 (.seq 3) → s.cyc.toNat = 63 →
      exec i s = .next
        { s.called (.pinWrite .ctlOut true) with
          outCtl := true, req := !s.req, phase := .s4, sub := .first .read }) ∧
    (∀ p, p = .s3 ∨ p = .s4 →
      waitsFor s.req i p .first (fun s => { s with sub := .seq 0 }) .peerUnresponsive s) ∧
    (s.standsAt i .s4 (.seq 3) →
      exec i s = .next
        { s.called (.pinWrite .ctlOut true) with outCtl := true, phase := .s5, cyc := 0, sub := .first .read }) ∧
    waitsFor false i .s5 .first (fun s => { s with sub := .second .read }) .peerUnresponsive s ∧
    waitsFor true i .s5 .second (fun s => { s with sub := .start }) .peerUnresponsive s ∧
    (s.standsAt i .s5 .start → s.rxbuf.N = 8 → s.cyc.toNat < 7 →
      exec i s = .next
        { s.called (.pinRead .dataIn s.wDataIn) with
          rxbuf := rawPutBit s.rxbuf s.cyc.toNat s.wDataIn, cyc := s.cyc + 1, sub := .first .read }) ∧
    (s.standsAt i .s5 .start → s.rxbuf.N = 8 → s.cyc.toNat = 7 →
      exec i s = .next
        { s.called (.pinRead .dataIn s.wDataIn) with
          rxbuf := rawPutBit s.rxbuf 7 s.wDataIn, phase := .s6, sub := .first .read }) ∧
    waitsFor false i .s6 .first (fun s => { s with phase := .s7, sub := .start }) .peerUnresponsive s ∧
    (s.standsAt i .s7 .start → s.rxbuf.N = 8 →
      exec i s = .next
        { s with
          cur := none, phase := .idle, cyc := 0, sub := .start, delayLeft := 0, result := .code 0, ok := true,
          outStdCfg := stdConfigOf s.rxbuf, err := 0
          history := ⟨.code 0, .stdConfig (stdConfigOf s.rxbuf)⟩ :: s.history })

/-! ## Exceptions -/

/-- `abort(code)` and its codes (rules R220, R232, R234): CTL_OUT to its idle level, then DATA_OUT to 0, then `(IDLE, 0)`,
`ERR` and the return; the table of codes by class, variant and role. The idle levels are the spec's (D2). -/
def Obligations.AbortRestoresIdleAndReturns : Prop :=
  (∀ (i : Instr) (code : Word) (s : State), isDataPlane i = true → s.cur = some i → s.delayLeft = 0 →
    (s.sub = .abortCtl code →
      exec i s = .next
        { s.called (.pinWrite .ctlOut (decide (s.cfg.variant = .std ∧ s.cfg.role = .throttleClient))) with
          outCtl := decide (s.cfg.variant = .std ∧ s.cfg.role = .throttleClient), sub := .abortData code }) ∧
    (s.sub = .abortData code →
      exec i s = .next
        { s.ends (.code code) (.pinWrite .dataOut false) with outData := false, err := code })) ∧
  (∀ c : Config, failureCode .noPeer c = c.noPeerCode ∧
    ∀ f, f ≠ .noPeer →
      (c.variant = .pro → failureCode f c = c.proBackoff) ∧
      (c.variant = .std → c.role = .joystickClient → failureCode f c = c.stdJcBackoff) ∧
      (c.variant = .std → c.role = .throttleClient → failureCode f c = c.stdTcBackoff))

/-- Rules R186, R222 to R225: where each class of frame failure can arise, and nowhere else. Every timeout is a deadline
test of a wait, found expired; a `WaitForPulse` fails where it has its result. -/
def Obligations.FailureClassesArise : Prop :=
  ∀ (i : Instr) (s t : State), exec i s = .next t → t.failure ≠ s.failure → t.failure ≠ none →
    s.cur = some i ∧
    (t.failure = some .noPeer →
      (∃ st w, i = .sendPro st w) ∧ s.phase = .c ∧ s.cyc = 0 ∧ timedOut (.first .test) s ∨
      (∃ r w, i = .pollPro r w) ∧ s.phase = .a ∧ s.cyc = 0 ∧ timedOut (.first .test) s ∨
      (∃ st w, i = .sendStd st w) ∧ s.phase = .s1 ∧ timedOut (.first .test) s ∨
      (∃ r w, i = .pollStd r w) ∧
        (s.phase = .p1 ∧ timedOut (.first .test) s ∨
          s.phase = .p2 ∧ endsPulse s.sub = true ∧ t.pwResult = .notStarted)) ∧
    (t.failure = some .desync →
      (∃ st w, i = .sendPro st w) ∧ s.phase = .d ∧ s.sub = .start ∧
        (s.cyc.toNat = 56 ∧ s.wDataIn = true ∨
          1 ≤ s.cyc.toNat ∧ s.cyc.toNat ≤ 55 ∧ s.cfg.proStrict = true ∧ s.wDataIn = false)) ∧
    (t.failure = some .checksumFailure → (∃ r w, i = .pollStd r w) ∧ s.phase = .p7 ∧ s.sub = .seq 1 ∧ t.ok = false) ∧
    (t.failure = some .peerUnresponsive →
      (∃ st w, i = .sendPro st w) ∧ timedOut (.first .test) s ∧ (s.phase = .c ∧ s.cyc ≠ 0 ∨ s.phase = .f) ∨
      (∃ r w, i = .pollPro r w) ∧ timedOut (.first .test) s ∧ (s.phase = .a ∧ s.cyc ≠ 0 ∨ s.phase = .e) ∨
      (∃ st w, i = .sendStd st w) ∧
        (timedOut (.first .test) s ∧ (s.phase = .s3 ∨ s.phase = .s4 ∨ s.phase = .s5 ∨ s.phase = .s6) ∨
          timedOut (.second .test) s ∧ s.phase = .s5) ∨
      (∃ r w, i = .pollStd r w) ∧
        (s.phase = .p5 ∧ timedOut (.first .test) s ∨
          s.phase = .p2 ∧ endsPulse s.sub = true ∧ (t.pwResult = .started ∨ t.pwResult = .tooMany) ∨
          (s.phase = .p3 ∨ s.phase = .p4) ∧ endsPulse s.sub = true ∧ t.pwResult ≠ .finished))

/-- Rules R222, R276, R280: with a peer that does not answer, a `wait_micros` of 0 (or of 2^31 and more, rule R165, log
entry 19) is one probe: the exact calls, then NoPeer, with both outputs at idle and no output record written. For POLL.STD
the silent peer's line is at its idle level 1 (with either waiter), or at 0. -/
def Obligations.ZeroWaitProbesOnce : Prop :=
  ∀ (st : JoystickState) (pc : ProConfig) (sc : StdConfig) (wait : Word) (s : State), s.cur = none →
    s.setupDone = true → s.cfg.stdStrict = false → (wait = 0 ∨ 2 ^ 31 ≤ wait.toNat) →
    (isInstance s.cfg .pro .throttleClient = true → s.wCtlIn = false →
      execSteps (.sendPro st wait) 7 s = .next
        { s.returned (.code s.cfg.noPeerCode)
            [.pinWrite .dataOut false, .pinWrite .ctlOut false, .clockRead s.now, .pinRead .ctlIn false,
              .pinWrite .ctlOut true, .pinWrite .dataOut (st.x.getLsbD 0), .clockRead s.now] with
          txbuf := encProState st, rxbuf := ⟨19, [0, 0, 0]⟩, dl := s.now, outCtl := false, outData := false,
          failure := some .noPeer, err := s.cfg.noPeerCode }) ∧
    (isInstance s.cfg .pro .joystickClient = true → s.wCtlIn = false →
      execSteps (.pollPro pc wait) 5 s = .next
        { s.returned (.code s.cfg.noPeerCode)
            [.pinWrite .dataOut false, .pinWrite .ctlOut false, .clockRead s.now, .pinRead .ctlIn false,
              .clockRead s.now] with
          txbuf := encProCfg s.cfg.ledCode pc, rxbuf := ⟨56, [0, 0, 0, 0, 0, 0, 0]⟩, dl := s.now,
          outCtl := false, outData := false, failure := some .noPeer, err := s.cfg.noPeerCode }) ∧
    (isInstance s.cfg .std .throttleClient = true → s.wCtlIn = false →
      execSteps (.sendStd st wait) 5 s = .next
        { s.returned (.code s.cfg.noPeerCode)
            [.pinWrite .dataOut false, .pinWrite .ctlOut true, .clockRead s.now, .pinRead .ctlIn false,
              .clockRead s.now] with
          txbuf := encStdState st, rxbuf := ⟨8, [0]⟩, dl := s.now, outCtl := true, outData := false,
          failure := some .noPeer, err := s.cfg.noPeerCode }) ∧
    (isInstance s.cfg .std .joystickClient = true → s.wCtlIn = false →
      execSteps (.pollStd sc wait) 5 s = .next
        { s.returned (.code s.cfg.noPeerCode)
            [.pinWrite .dataOut false, .pinWrite .ctlOut false, .clockRead s.now, .pinRead .ctlIn false,
              .clockRead s.now] with
          txbuf := encStdCfg sc, rxbuf := ⟨64, [0, 0, 0, 0, 0, 0, 0, 0]⟩, dl := s.now, req := false,
          outCtl := false, outData := false, failure := some .noPeer, err := s.cfg.noPeerCode }) ∧
    (isInstance s.cfg .std .joystickClient = true → s.wCtlIn = true → s.cfg.waiter = .polling →
      execSteps (.pollStd sc wait) 7 s = .next
        { s.returned (.code s.cfg.noPeerCode)
            [.pinWrite .dataOut false, .pinWrite .ctlOut false, .clockRead s.now, .pinRead .ctlIn true,
              .pinWrite .ctlOut true, .pinRead .ctlIn true, .clockRead s.now] with
          txbuf := encStdCfg sc, rxbuf := ⟨64, [0, 0, 0, 0, 0, 0, 0, 0]⟩, dl := s.now, req := true,
          outCtl := false, outData := false, pwResult := .notStarted, failure := some .noPeer
          err := s.cfg.noPeerCode }) ∧
    (isInstance s.cfg .std .joystickClient = true → s.wCtlIn = true → s.cfg.waiter = .interruptCounted →
      execSteps (.pollStd sc wait) 9 s = .next
        { s.returned (.code s.cfg.noPeerCode)
            [.pinWrite .dataOut false, .pinWrite .ctlOut false, .pinRead .ctlIn true, .clockRead s.now,
              .counterRead s.edgeCnt, .pinWrite .ctlOut true, .counterRead s.edgeCnt, .pinRead .ctlIn true,
              .clockRead s.now] with
          txbuf := encStdCfg sc, rxbuf := ⟨64, [0, 0, 0, 0, 0, 0, 0, 0]⟩, dl := s.now, req := true,
          baseCnt := s.edgeCnt, outCtl := false, outData := false, pwResult := .notStarted
          failure := some .noPeer, err := s.cfg.noPeerCode })

/-- Rules R102, R103, R208, R263, R265: a call the instance does not accept is turned away: it has no effect but the
answer HOST sees. The form of that answer is the model's (log entry 7, DESIGN CHOICE); that the operations of a Std
instance with STD_STRICT, which R208 says is not constructible, are turned away as such is log entry 25 (DEDUCED); that
HOST's own call of EDGECB is turned away is log entry 22 (DEDUCED). -/
def Obligations.CallsAreTurnedAway : Prop :=
  (∀ (i : Instr) (s : State), s.cur = none → acceptedBy s.cfg i = false →
    (s.cfg.stdStrict = false ∨ isWaitPulse i = false) → exec i s = .next { s with turned := some .notAccepted }) ∧
  (∀ (i : Instr) (s : State), s.cur = none → acceptedBy s.cfg i = true → needsSetup i = true →
    (s.cfg.variant = .std → s.cfg.stdStrict = false) → s.setupDone = false →
    exec i s = .next { s with turned := some .notSetUp }) ∧
  (∀ (i : Instr) (s : State), s.cur = none → acceptedBy s.cfg i = true →
    (needsSetup i || isSetup i || isWaitPulse i) = true → s.cfg.variant = .std → s.cfg.stdStrict = true → exec i s = .next { s with turned := some .strictStd }) ∧
  (∀ (i j : Instr) (s : State), s.cur = some j → j ≠ i → i ≠ .edgeCb →
    exec i s = .next { s with turned := some .busy }) ∧
  (∀ (c : Code) (s : State), s.cur ≠ none → ∃ why, call c s = .next { s with turned := some why }) ∧
  (∀ (c : Code) (e : DecodeError) (s : State), decode c = .error e →
    call c s = .next { s with turned := some (.undecodable e) }) ∧
  (∀ (a : Args) (s : State), call (.op 0x42 a) s = .next { s with turned := some .callbackOnly })

/-! ## The machine -/

/-- The agents other than ENGINE and HOST's calls (rules R43, R44, R55, R56, R70, R177, R191 (b), R261, R278): what each
changes. HOST may construct an instance at any time, in mid-frame too; the operation that runs is then abandoned. A
`delay_us` in progress holds ENGINE until the clock has advanced by as much (rule R55). Successive reads of the clock do
not go backwards (rule R54), and after a `delay_us(n)` the clock is at least `n` past the last read before it (rule R55).
That CLOCK stands still 2^31 - 1 past the last read is how the model keeps R54: log entry 10 (DEDUCED); the countdown of a
delay is log entry 11 (DEDUCED); HOST's construction as an event, and what it leaves, is log entry 32 (DESIGN CHOICE). -/
def Obligations.SurroundingsMoveAndDelaysHold : Prop :=
  (∀ (v : Bool) (s : State),
    turn (.peerCtl v) s = .next
      { s with
        wCtlIn := v
        edgePending :=
          if s.attached = true ∧ s.wCtlIn = true ∧ v = false then s.edgePending + 1 else s.edgePending }) ∧
  (∀ (v : Bool) (s : State), turn (.peerData v) s = .next { s with wDataIn := v }) ∧
  (∀ (us : Word) (s : State), (∀ a, s.lastRead = some a → (s.now - a).toNat + us.toNat < 2 ^ 31) →
    turn (.clock us) s = .next { s with now := s.now + us, delayLeft := s.delayLeft - us.toNat }) ∧
  (∀ (us a : Word) (s : State), s.lastRead = some a → (s.now - a).toNat < 2 ^ 31 →
    2 ^ 31 ≤ (s.now - a).toNat + us.toNat →
    turn (.clock us) s = .next { s with now := a + 0x7FFFFFFF, delayLeft := s.delayLeft - us.toNat }) ∧
  (∀ (e : Event) (s t : State) (a b : Word), s.inv = true → turn e s = .next t → s.lastRead = some a →
    t.lastRead = some b → 0 ≤ (b - a).toInt) ∧
  (∀ (es : List Event) (s t : State) (n a : Word), s.inv = true → s.cur ≠ none → s.lastRead = some a →
    s.delayLeft = n.toNat → n.toNat < 2 ^ 31 → (∀ e ∈ es, e ≠ .engine ∧ ∀ c, e ≠ .construct c) →
    turns es s = .next t → t.delayLeft = 0 → n.toInt ≤ (t.now - a).toInt) ∧
  (∀ (c : Config) (s : State), c.wf = true →
    turn (.construct c) s = .next
      { State.construct c with
        outCtl := s.outCtl, outData := s.outData, dirCtlOut := s.dirCtlOut, dirDataOut := s.dirDataOut
        dirCtlIn := s.dirCtlIn, dirDataIn := s.dirDataIn, now := s.now, lastRead := s.lastRead
        wCtlIn := s.wCtlIn, wDataIn := s.wDataIn
        args := s.args, outState := s.outState, outProCfg := s.outProCfg, outStdCfg := s.outStdCfg
        history := s.history, inputs := s.inputs, free := s.free }) ∧
  (∀ (c : Config) (s : State), c.wf = false →
    turn (.construct c) s = .next { s with turned := some .notConstructible }) ∧
  (∀ (a : Args) (s : State), turn (.hostArgs a) s = .next { s with args := a }) ∧
  (∀ s : State, s.cur = none → turn .engine s = .next s) ∧
  (∀ (i : Instr) (s : State), s.cur = some i → 0 < s.delayLeft →
    isDataPlane i = true ∨ (∃ p v dl, i = .waitPin p v dl) ∨ (∃ dl tr, i = .waitPulsePoll dl tr) ∨
      (∃ dl tr, i = .waitPulseIrq dl tr) →
    turn .engine s = .next s)

/-- A step runs the decoded instruction: with HOST's call next in the queue, nothing running, and the call decoding to a
well-formed instruction that HOST may issue, the step is `exec` of it once the call is taken; ENGINE's turn goes on with
the running one; EDGECB's turn is the callback (rules R13, R102, R177; log entry 6). -/
def Obligations.StepRunsDecodedInstruction : Prop :=
  (∀ (s : State) (code : Byte) (rest : List Event) (i : Instr), s.inputs = .issue code :: rest → s.cur = none →
    decode (.op code s.args) = .ok i → i ≠ .edgeCb → step s = exec i { s with inputs := rest }) ∧
  (∀ (s : State) (n b : Nat) (rest : List Event) (i : Instr), s.inputs = .wire n b :: rest → s.cur = none →
    decode (.wire n b) = .ok i → step s = exec i { s with inputs := rest }) ∧
  (∀ (s : State) (rest : List Event) (i : Instr), s.inputs = .engine :: rest → s.cur = some i →
    step s = exec i { s with inputs := rest }) ∧
  (∀ (s : State) (rest : List Event), s.inputs = .edgecb :: rest → step s = exec .edgeCb { s with inputs := rest }) ∧
  (∀ s : State, s.inputs = [] → ∃ e, step s = turn e { s with free := s.free + 1 }) ∧
  (∀ (s : State) (w : Nat) (i : Instr), s.cur = none → decode (.op (BitVec.ofNat 8 w) s.args) = .ok i →
    w % 256 ≠ 0x42 → step (s.withFetchWord 8 w) = exec i s) ∧
  (∀ s : State, step (s.withFetchWord 8 0x42) = exec .edgeCb s)

/-- Decoding the encoding of a well-formed instruction gives the instruction back. -/
def Obligations.DecodeInvertsEncode : Prop :=
  ∀ i : Instr, i.wellFormed = true → decode (encode i) = .ok i

/-- The table of rule R102 (the codes are the spec's choice, D30): each of its 32 codes selects its operation with the
operands its row names, whatever they are, and every code outside the table selects nothing; and a word of each family,
written out bit by bit. The premises `1 ≤ n ≤ 64` and the form of a BitBuffer operand are log entry 17 (DESIGN CHOICE).
The operands `bbZero 64` and `expired 0` are those of `Args.defaults`, log entry 5 (DESIGN CHOICE); that 24 bits are the
19-bit wire format is log entry 3 (DESIGN CHOICE). -/
def Obligations.OpcodeTableIsFollowed : Prop :=
  (∀ a : Args,
    (1 ≤ a.n → a.n ≤ 64 → decode (.op 0x00 a) = .ok (.bbZero a.n)) ∧
    (a.buf.wf = true →
      decode (.op 0x01 a) = .ok (.bbGetBit a.buf a.i) ∧ decode (.op 0x02 a) = .ok (.bbSetBit a.buf a.i a.v) ∧
      decode (.op 0x03 a) = .ok (.bbGetField a.buf a.start a.width) ∧
      decode (.op 0x04 a) = .ok (.bbSetField a.buf a.start a.width a.v) ∧
      decode (.op 0x05 a) = .ok (.bbGetByte a.buf a.k) ∧ decode (.op 0x06 a) = .ok (.bbSetByte a.buf a.k a.v) ∧
      decode (.op 0x11 a) = .ok (.decProState a.buf) ∧ decode (.op 0x13 a) = .ok (.decProCfg a.buf) ∧
      decode (.op 0x21 a) = .ok (.decStdState a.buf) ∧ decode (.op 0x23 a) = .ok (.decStdCfg a.buf) ∧
      decode (.op 0x24 a) = .ok (.checksum a.buf)) ∧
    decode (.op 0x10 a) = .ok (.encProState a.stateRec) ∧ decode (.op 0x12 a) = .ok (.encProCfg a.proCfg) ∧
    decode (.op 0x20 a) = .ok (.encStdState a.stateRec) ∧ decode (.op 0x22 a) = .ok (.encStdCfg a.stdCfg) ∧
    decode (.op 0x30 a) = .ok (.deadline a.us) ∧ decode (.op 0x31 a) = .ok (.expired a.dl) ∧
    decode (.op 0x32 a) = .ok (.waitPin a.pin a.level a.dl) ∧
    decode (.op 0x40 a) = .ok (.waitPulsePoll a.dl a.trig) ∧ decode (.op 0x41 a) = .ok (.waitPulseIrq a.dl a.trig) ∧
    decode (.op 0x42 a) = .ok .edgeCb ∧ decode (.op 0x50 a) = .ok .setupProJc ∧
    decode (.op 0x51 a) = .ok .setupProTc ∧ decode (.op 0x52 a) = .ok (.pollPro a.proCfg a.waitMicros) ∧
    decode (.op 0x53 a) = .ok (.sendPro a.stateRec a.waitMicros) ∧ decode (.op 0x54 a) = .ok .peekPro ∧
    decode (.op 0x60 a) = .ok .setupStdJc ∧ decode (.op 0x61 a) = .ok .setupStdTc ∧
    decode (.op 0x62 a) = .ok (.pollStd a.stdCfg a.waitMicros) ∧
    decode (.op 0x63 a) = .ok (.sendStd a.stateRec a.waitMicros) ∧ decode (.op 0x64 a) = .ok .peekStd) ∧
  (decodeTableWord 8 0b00000000 = some (.bbZero 64) ∧ decodeTableWord 8 0b00010000 = some (.encProState .defaults) ∧
    decodeTableWord 8 0b00100010 = some (.encStdCfg .defaults) ∧ decodeTableWord 8 0b00110001 = some (.expired 0) ∧
    decodeTableWord 8 0b01000010 = some .edgeCb ∧ decodeTableWord 8 0b01010100 = some .peekPro ∧
    decodeTableWord 8 0b01100000 = some .setupStdJc ∧
    decodeTableWord 24 0b10101101101 = some (.wireProCfg 0b10101101101)) ∧
  (∀ (code : Byte) (a : Args),
    code.toNat ∉ [0x00, 0x01, 0x02, 0x03, 0x04, 0x05, 0x06, 0x10, 0x11, 0x12, 0x13, 0x20, 0x21, 0x22, 0x23, 0x24, 0x30,
      0x31, 0x32, 0x40, 0x41, 0x42, 0x50, 0x51, 0x52, 0x53, 0x54, 0x60, 0x61, 0x62, 0x63, 0x64] →
    decode (.op code a) = .error (.unknownOp code))

/-- Reset (rules R260, R261): every element the table gives a value, of every instance right after its construction, and
of the one the machine starts with. Elements the table calls unspecified are not mentioned. -/
def Obligations.ResetHasTheStatedValues : Prop :=
  (∀ c : Config, (State.construct c).cfg = c ∧ (State.construct c).txbuf = zeros (txWidth c) ∧
    (State.construct c).rxbuf = zeros (rxWidth c) ∧ (State.construct c).phase = .idle ∧ (State.construct c).cyc = 0 ∧
    (State.construct c).setupDone = false ∧ (State.construct c).req = false ∧ (State.construct c).edgeCnt = 0 ∧
    (State.construct c).edgePending = 0 ∧ (State.construct c).attached = false ∧ (State.construct c).cur = none ∧
    (State.construct c).calls = []) ∧
  State.reset.txbuf = zeros (txWidth State.reset.cfg) ∧ State.reset.rxbuf = zeros (rxWidth State.reset.cfg) ∧
  State.reset.phase = .idle ∧ State.reset.cyc = 0 ∧ State.reset.setupDone = false ∧ State.reset.req = false ∧
  State.reset.edgeCnt = 0 ∧ State.reset.edgePending = 0 ∧ State.reset.attached = false ∧ State.reset.cur = none ∧
  State.reset.cfg.proStrict = false ∧ State.reset.cfg.stdStrict = false ∧ State.reset.cfg.debug = false ∧
  State.reset.cfg.waiter = .interruptCounted ∧ State.reset.args.stateRec = .defaults ∧
  State.reset.args.proCfg =
    { brightness := 31, pov1Blink := false, fireLed := true, buttonALed := .green, pov2Led := .green,
      buttonBLed := .green, t1t2Led := .green, t3t4Led := .green, t5t6Led := .green } ∧
  State.reset.args.stdCfg = { brightness := 127, pov1Blink := false }

/-- The invariant holds at reset and right after the construction of any instance (rule R261). The configuration at reset
is the model's (log entry 4, DESIGN CHOICE), and it is one that can be constructed: it meets the constraints of rules R10,
R12 and R208, the peer's frame timeout among them taken as in log entry 15 (DEDUCED). -/
def Obligations.ResetMeetsInvariant : Prop :=
  (∀ c : Config, (State.construct c).inv = true) ∧ State.reset.inv = true ∧ State.reset.cfg.wf = true

/-- Every step keeps the invariant (rules R29, R30, R35, R264): the buffers have their form and width, CYC is at most 75, the
instance is at rest at `(IDLE, 0)` with its outputs at idle or stands at a place of the operation it runs, the callback is
attached only where it may be, and the clock is less than 2^31 past its last read (rule R54). -/
def Obligations.StepKeepsInvariant : Prop :=
  ∀ s t : State, s.inv = true → step s = .next t → t.inv = true

/-- Rule R63: no operation of the engine itself ever makes an out-of-range access; more, under the invariant every
operation that takes no host buffer answers a next state, so ENGINE is never stuck. -/
def Obligations.EngineNeverLeavesRange : Prop :=
  ∀ (i : Instr) (s : State), s.inv = true → takesHostBuffer i = false → ∃ t, exec i s = .next t

/-- Rules R35, R188, R232, R264: whenever a data-plane operation returns, whatever its outcome, both outputs are at idle,
all four directions are as Setup left them, the position is `(IDLE, 0)` and `ERR` is what it returned. -/
def Obligations.OutputsIdleAtReturn : Prop :=
  ∀ (i : Instr) (s t : State), isDataPlane i = true → s.inv = true → s.cur = some i → exec i s = .next t →
    t.cur = none → outputsIdle t = true ∧ dirsSet t = true ∧ t.atRest = true ∧ t.result = .code t.err ∧
      ∃ rec, t.history = ⟨.code t.err, rec⟩ :: s.history ∧ (rec ≠ .nothing → t.err = 0)

/-- Rules R30 to R33, R35 to R42, R45, R54, R56, R188, R203, R236: who writes what. No operation writes the
configuration, the clock, the input wires, HOST's operands or the queue; each other element is written only by the
operations named. -/
def Obligations.EachElementHasItsWriters : Prop :=
  ∀ (i : Instr) (s t : State), exec i s = .next t →
    t.cfg = s.cfg ∧ t.now = s.now ∧ t.wCtlIn = s.wCtlIn ∧ t.wDataIn = s.wDataIn ∧ t.args = s.args ∧
    t.inputs = s.inputs ∧
    (t.setupDone ≠ s.setupDone → isSetup i = true ∧ t.setupDone = true) ∧
    ((t.dirCtlOut ≠ s.dirCtlOut ∨ t.dirDataOut ≠ s.dirDataOut ∨ t.dirCtlIn ≠ s.dirCtlIn ∨
      t.dirDataIn ≠ s.dirDataIn) → isSetup i = true) ∧
    (t.edgeCnt ≠ s.edgeCnt ∨ t.edgePending ≠ s.edgePending → i = .edgeCb ∨ i = .setupStdJc) ∧
    (t.attached ≠ s.attached → i = .setupStdJc ∧ t.attached = true) ∧
    (t.phase ≠ s.phase ∨ t.cyc ≠ s.cyc → isDataPlane i = true ∨ t.phase = .idle ∧ t.cyc = 0) ∧
    (t.ok ≠ s.ok → writesOk i = true) ∧
    (t.req ≠ s.req → i = .setupStdJc ∨ i = .setupStdTc ∨ (∃ r w, i = .pollStd r w) ∨ (∃ st w, i = .sendStd st w) ∨
      (∃ d, i = .waitPulsePoll d .toggleReq) ∨ (∃ d, i = .waitPulseIrq d .toggleReq)) ∧
    (t.lastRead ≠ s.lastRead → t.lastRead = some s.now) ∧
    (t.history = s.history ∨ ∃ a, t.history = a :: s.history ∧ t.result = a.result ∧ t.cur = none) ∧
    (t.err ≠ s.err ∨ t.txbuf ≠ s.txbuf ∨ t.rxbuf ≠ s.rxbuf ∨ t.dl ≠ s.dl → isDataPlane i = true) ∧
    (t.outState ≠ s.outState → (∃ r w, i = .pollPro r w) ∨ (∃ r w, i = .pollStd r w)) ∧
    (t.outProCfg ≠ s.outProCfg → ∃ st w, i = .sendPro st w) ∧
    (t.outStdCfg ≠ s.outStdCfg → ∃ st w, i = .sendStd st w) ∧
    (t.pwResult ≠ s.pwResult ∨ t.baseCnt ≠ s.baseCnt →
      (∃ d tr, i = .waitPulsePoll d tr) ∨ (∃ d tr, i = .waitPulseIrq d tr) ∨ (∃ r w, i = .pollStd r w)) ∧
    (t.outCtl ≠ s.outCtl → isSetup i = true ∨ isDataPlane i = true ∨ (∃ d tr, i = .waitPulsePoll d tr) ∨
      (∃ d tr, i = .waitPulseIrq d tr)) ∧
    (t.outData ≠ s.outData → isSetup i = true ∨ isDataPlane i = true)

/-- Rules R188, R278: records are sampled once. What HOST does to its operands while an operation runs changes nothing of
what the operation does. -/
def Obligations.HostRecordsSampledOnce : Prop :=
  ∀ (i : Instr) (a : Args) (s t : State), exec i s = .next t →
    exec i { s with args := a } = .next { t with args := a }

/-- Rules R29, R264: nothing is remembered. Two instances at rest that differ only in what earlier operations left stale
make, under the same events, the same calls (but for the value of the edge counter, which differs as much as before
until a Setup zeroes it), drive the same levels, and return the same results and records, in the same order. -/
def Obligations.NothingCarriesOver : Prop :=
  ∀ (es : List Event) (s u t : State), s.inv = true → u.inv = true → s.atRest = true → sameButStale s u →
    turns es s = .next t →
    ∃ v, turns es u = .next v ∧ v.calls.map anyCount = t.calls.map anyCount ∧ v.result = t.result ∧ v.turned = t.turned ∧
      v.failure = t.failure ∧ v.outCtl = t.outCtl ∧ v.outData = t.outData ∧ v.outState = t.outState ∧
      v.outProCfg = t.outProCfg ∧ v.outStdCfg = t.outStdCfg ∧ v.phase = t.phase ∧ v.cyc = t.cyc ∧
      v.history = t.history ∧ (v.edgeCnt = t.edgeCnt ∨ v.edgeCnt - t.edgeCnt = u.edgeCnt - s.edgeCnt)

/-- Rule R274: every operation returns. Under every schedule in which the clock advances again and again (A-CLK) and every
primitive call returns (A-DLY: ENGINE makes its next call again and again), the running operation comes to its end. The
end is a return to HOST, which adds its answer to the history, unless HOST constructs the instance anew before (R191 (b)).
That A-CLK and A-DLY are predicates on schedules is log entry 9 (DESIGN CHOICE). The clause `delaysReturn`, that every
delay returns under A-CLK alone, is the model's choice and no rule of the spec: R55 gives a delay no upper bound, and R274
takes its return as part of A-DLY; it rests on how the model counts a delay down, log entry 11 (DEDUCED). -/
def Obligations.EveryOperationReturns : Prop :=
  ∀ (σ : Schedule) (s : State), s.inv = true → clockAdvancesForEver σ →
    delaysReturn σ s ∧
      (callsReturn σ → s.cur ≠ none → ∃ n t, stateAt σ s n = some t ∧ t.cur = none ∧
        ((∃ a, t.history = a :: s.history) ∨ ∃ m c, m < n ∧ σ m = .construct c ∧ c.wf = true))

/-! ## Two engines on a loopback -/

/-- Rule R189: let A run SEND.PRO and B run POLL.PRO over a loopback, started in either order, under any interleaving of
their primitive calls and any advance of their clocks. If both return 0, B's `out_state` is A's `in_state`, A's
`out_config` is B's `in_config` (for valid records and one LED code), and all four wires are 0. -/
def Obligations.ProLoopbackAgrees : Prop :=
  ∀ (l m : Link) (es : List LinkEvent), l.ready = true → isInstance l.a.cfg .pro .throttleClient = true →
    isInstance l.b.cfg .pro .joystickClient = true → l.b.cfg.ledCode = l.a.cfg.ledCode →
    validProState l.a.args.stateRec = true → validProConfig l.b.args.proCfg = true →
    (callsOf es = [.onA (.issue 0x53), .onB (.issue 0x52)] ∨ callsOf es = [.onB (.issue 0x52), .onA (.issue 0x53)]) →
    linkTurns es l = some m → m.a.cur = none → m.b.cur = none → m.a.result = .code 0 → m.b.result = .code 0 →
    m.b.outState = l.a.args.stateRec ∧ m.a.outProCfg = l.b.args.proCfg ∧ m.a.outCtl = false ∧
      m.a.outData = false ∧ m.b.outCtl = false ∧ m.b.outData = false ∧ m.wired = true

/-- Rule R189: and there is an interleaving under which both do return 0, with the counts of primitive calls that rule
gives: 77 writes of DATA_OUT, 152 writes of CTL_OUT, 152 reads of CTL_IN, 76 reads of DATA_IN and 2 `clock_read`,
each, and no other call. -/
def Obligations.ProLoopbackCanComplete : Prop :=
  ∀ l : Link, l.ready = true → isInstance l.a.cfg .pro .throttleClient = true →
    isInstance l.b.cfg .pro .joystickClient = true →
    ∃ (es : List LinkEvent) (m : Link), callsOf es = [.onB (.issue 0x52), .onA (.issue 0x53)] ∧
      linkTurns es l = some m ∧ m.a.cur = none ∧ m.b.cur = none ∧ m.a.result = .code 0 ∧ m.b.result = .code 0 ∧
      frameCalls m.a.calls = [77, 152, 152, 76, 2] ∧ frameCalls m.b.calls = [77, 152, 152, 76, 2] ∧
      m.a.calls.length = 459 ∧ m.b.calls.length = 459

/-- Rules R200, R210: let A run SEND.STD and B run POLL.STD over a loopback, with either waiter, under any interleaving. If B
returns 0, its `out_state` is A's `in_state`. (Nothing is said of A's config, whose phase is open-loop: rule R273.) -/
def Obligations.StdLoopbackStateArrives : Prop :=
  ∀ (l m : Link) (es : List LinkEvent), l.ready = true → isInstance l.a.cfg .std .throttleClient = true →
    isInstance l.b.cfg .std .joystickClient = true → validStdState l.a.args.stateRec = true →
    (callsOf es = [.onA (.issue 0x63), .onB (.issue 0x62)] ∨ callsOf es = [.onB (.issue 0x62), .onA (.issue 0x63)]) →
    linkTurns es l = some m → m.b.cur = none → m.b.result = .code 0 → m.b.outState = l.a.args.stateRec

/-- Rules R200, R210: and there is an interleaving under which both return 0 and both records arrive. -/
def Obligations.StdLoopbackCanComplete : Prop :=
  ∀ l : Link, l.ready = true → isInstance l.a.cfg .std .throttleClient = true →
    isInstance l.b.cfg .std .joystickClient = true →
    (l.b.cfg.waiter = .interruptCounted → l.b.attached = true) → validStdState l.a.args.stateRec = true →
    validStdConfig l.b.args.stdCfg = true →
    ∃ (es : List LinkEvent) (m : Link), callsOf es = [.onA (.issue 0x63), .onB (.issue 0x62)] ∧
      linkTurns es l = some m ∧ m.a.cur = none ∧ m.b.cur = none ∧ m.a.result = .code 0 ∧ m.b.result = .code 0 ∧
      m.b.outState = l.a.args.stateRec ∧ m.a.outStdCfg = l.b.args.stdCfg

end Statements
end

