-- ==== Sys2Proof/Laws/State.lean ====
section
/-! SUPPORT. One lemma per field per update of State: what each named update of Machine/Ops, Flags, Pulse, Setup and Turn
makes of each field. No later proof unfolds a record update. -/

namespace Sys2Proof.Machine

/-! ## logCall -/

@[simp] theorem logCall_cfg (c : PrimCall) (s : State) : (logCall c s).cfg = s.cfg := rfl
@[simp] theorem logCall_txbuf (c : PrimCall) (s : State) : (logCall c s).txbuf = s.txbuf := rfl
@[simp] theorem logCall_rxbuf (c : PrimCall) (s : State) : (logCall c s).rxbuf = s.rxbuf := rfl
@[simp] theorem logCall_phase (c : PrimCall) (s : State) : (logCall c s).phase = s.phase := rfl
@[simp] theorem logCall_cyc (c : PrimCall) (s : State) : (logCall c s).cyc = s.cyc := rfl
@[simp] theorem logCall_pwResult (c : PrimCall) (s : State) : (logCall c s).pwResult = s.pwResult := rfl
@[simp] theorem logCall_ok (c : PrimCall) (s : State) : (logCall c s).ok = s.ok := rfl
@[simp] theorem logCall_err (c : PrimCall) (s : State) : (logCall c s).err = s.err := rfl
@[simp] theorem logCall_outCtl (c : PrimCall) (s : State) : (logCall c s).outCtl = s.outCtl := rfl
@[simp] theorem logCall_outData (c : PrimCall) (s : State) : (logCall c s).outData = s.outData := rfl
@[simp] theorem logCall_dirCtlOut (c : PrimCall) (s : State) : (logCall c s).dirCtlOut = s.dirCtlOut := rfl
@[simp] theorem logCall_dirDataOut (c : PrimCall) (s : State) : (logCall c s).dirDataOut = s.dirDataOut := rfl
@[simp] theorem logCall_dirCtlIn (c : PrimCall) (s : State) : (logCall c s).dirCtlIn = s.dirCtlIn := rfl
@[simp] theorem logCall_dirDataIn (c : PrimCall) (s : State) : (logCall c s).dirDataIn = s.dirDataIn := rfl
@[simp] theorem logCall_setupDone (c : PrimCall) (s : State) : (logCall c s).setupDone = s.setupDone := rfl
@[simp] theorem logCall_dl (c : PrimCall) (s : State) : (logCall c s).dl = s.dl := rfl
@[simp] theorem logCall_req (c : PrimCall) (s : State) : (logCall c s).req = s.req := rfl
@[simp] theorem logCall_edgeCnt (c : PrimCall) (s : State) : (logCall c s).edgeCnt = s.edgeCnt := rfl
@[simp] theorem logCall_baseCnt (c : PrimCall) (s : State) : (logCall c s).baseCnt = s.baseCnt := rfl
@[simp] theorem logCall_edgePending (c : PrimCall) (s : State) : (logCall c s).edgePending = s.edgePending := rfl
@[simp] theorem logCall_attached (c : PrimCall) (s : State) : (logCall c s).attached = s.attached := rfl
@[simp] theorem logCall_now (c : PrimCall) (s : State) : (logCall c s).now = s.now := rfl
@[simp] theorem logCall_lastRead (c : PrimCall) (s : State) : (logCall c s).lastRead = s.lastRead := rfl
@[simp] theorem logCall_wCtlIn (c : PrimCall) (s : State) : (logCall c s).wCtlIn = s.wCtlIn := rfl
@[simp] theorem logCall_wDataIn (c : PrimCall) (s : State) : (logCall c s).wDataIn = s.wDataIn := rfl
@[simp] theorem logCall_args (c : PrimCall) (s : State) : (logCall c s).args = s.args := rfl
@[simp] theorem logCall_outState (c : PrimCall) (s : State) : (logCall c s).outState = s.outState := rfl
@[simp] theorem logCall_outProCfg (c : PrimCall) (s : State) : (logCall c s).outProCfg = s.outProCfg := rfl
@[simp] theorem logCall_outStdCfg (c : PrimCall) (s : State) : (logCall c s).outStdCfg = s.outStdCfg := rfl
@[simp] theorem logCall_cur (c : PrimCall) (s : State) : (logCall c s).cur = s.cur := rfl
@[simp] theorem logCall_sub (c : PrimCall) (s : State) : (logCall c s).sub = s.sub := rfl
@[simp] theorem logCall_delayLeft (c : PrimCall) (s : State) : (logCall c s).delayLeft = s.delayLeft := rfl
@[simp] theorem logCall_result (c : PrimCall) (s : State) : (logCall c s).result = s.result := rfl
@[simp] theorem logCall_turned (c : PrimCall) (s : State) : (logCall c s).turned = s.turned := rfl
@[simp] theorem logCall_failure (c : PrimCall) (s : State) : (logCall c s).failure = s.failure := rfl
@[simp] theorem logCall_calls (c : PrimCall) (s : State) : (logCall c s).calls = c :: s.calls := rfl
@[simp] theorem logCall_history (c : PrimCall) (s : State) : (logCall c s).history = s.history := rfl
@[simp] theorem logCall_inputs (c : PrimCall) (s : State) : (logCall c s).inputs = s.inputs := rfl
@[simp] theorem logCall_free (c : PrimCall) (s : State) : (logCall c s).free = s.free := rfl

/-! ## pinMode -/

@[simp] theorem pinMode_cfg (p : Pin) (d : PinDir) (s : State) :
    (pinMode p d s).cfg = s.cfg := by cases p with | out q => cases q <;> rfl | inp q => cases q <;> rfl
@[simp] theorem pinMode_txbuf (p : Pin) (d : PinDir) (s : State) :
    (pinMode p d s).txbuf = s.txbuf := by cases p with | out q => cases q <;> rfl | inp q => cases q <;> rfl
@[simp] theorem pinMode_rxbuf (p : Pin) (d : PinDir) (s : State) :
    (pinMode p d s).rxbuf = s.rxbuf := by cases p with | out q => cases q <;> rfl | inp q => cases q <;> rfl
@[simp] theorem pinMode_phase (p : Pin) (d : PinDir) (s : State) :
    (pinMode p d s).phase = s.phase := by cases p with | out q => cases q <;> rfl | inp q => cases q <;> rfl
@[simp] theorem pinMode_cyc (p : Pin) (d : PinDir) (s : State) :
    (pinMode p d s).cyc = s.cyc := by cases p with | out q => cases q <;> rfl | inp q => cases q <;> rfl
@[simp] theorem pinMode_pwResult (p : Pin) (d : PinDir) (s : State) :
    (pinMode p d s).pwResult = s.pwResult := by cases p with | out q => cases q <;> rfl | inp q => cases q <;> rfl
@[simp] theorem pinMode_ok (p : Pin) (d : PinDir) (s : State) :
    (pinMode p d s).ok = s.ok := by cases p with | out q => cases q <;> rfl | inp q => cases q <;> rfl
@[simp] theorem pinMode_err (p : Pin) (d : PinDir) (s : State) :
    (pinMode p d s).err = s.err := by cases p with | out q => cases q <;> rfl | inp q => cases q <;> rfl
@[simp] theorem pinMode_outCtl (p : Pin) (d : PinDir) (s : State) :
    (pinMode p d s).outCtl = s.outCtl := by cases p with | out q => cases q <;> rfl | inp q => cases q <;> rfl
@[simp] theorem pinMode_outData (p : Pin) (d : PinDir) (s : State) :
    (pinMode p d s).outData = s.outData := by cases p with | out q => cases q <;> rfl | inp q => cases q <;> rfl
@[simp] theorem pinMode_dirCtlOut (p : Pin) (d : PinDir) (s : State) :
    (pinMode p d s).dirCtlOut =
      if p = .out .ctlOut then d else s.dirCtlOut :=
  by cases p with | out q => cases q <;> rfl | inp q => cases q <;> rfl
@[simp] theorem pinMode_dirDataOut (p : Pin) (d : PinDir) (s : State) :
    (pinMode p d s).dirDataOut =
      if p = .out .dataOut then d else s.dirDataOut :=
  by cases p with | out q => cases q <;> rfl | inp q => cases q <;> rfl
@[simp] theorem pinMode_dirCtlIn (p : Pin) (d : PinDir) (s : State) :
    (pinMode p d s).dirCtlIn =
      if p = .inp .ctlIn then d else s.dirCtlIn :=
  by cases p with | out q => cases q <;> rfl | inp q => cases q <;> rfl
@[simp] theorem pinMode_dirDataIn (p : Pin) (d : PinDir) (s : State) :
    (pinMode p d s).dirDataIn =
      if p = .inp .dataIn then d else s.dirDataIn :=
  by cases p with | out q => cases q <;> rfl | inp q => cases q <;> rfl
@[simp] theorem pinMode_setupDone (p : Pin) (d : PinDir) (s : State) :
    (pinMode p d s).setupDone = s.setupDone := by cases p with | out q => cases q <;> rfl | inp q => cases q <;> rfl
@[simp] theorem pinMode_dl (p : Pin) (d : PinDir) (s : State) :
    (pinMode p d s).dl = s.dl := by cases p with | out q => cases q <;> rfl | inp q => cases q <;> rfl
@[simp] theorem pinMode_req (p : Pin) (d : PinDir) (s : State) :
    (pinMode p d s).req = s.req := by cases p with | out q => cases q <;> rfl | inp q => cases q <;> rfl
@[simp] theorem pinMode_edgeCnt (p : Pin) (d : PinDir) (s : State) :
    (pinMode p d s).edgeCnt = s.edgeCnt := by cases p with | out q => cases q <;> rfl | inp q => cases q <;> rfl
@[simp] theorem pinMode_baseCnt (p : Pin) (d : PinDir) (s : State) :
    (pinMode p d s).baseCnt = s.baseCnt := by cases p with | out q => cases q <;> rfl | inp q => cases q <;> rfl
@[simp] theorem pinMode_edgePending (p : Pin) (d : PinDir) (s : State) :
    (pinMode p d s).edgePending =
      s.edgePending :=
  by cases p with | out q => cases q <;> rfl | inp q => cases q <;> rfl
@[simp] theorem pinMode_attached (p : Pin) (d : PinDir) (s : State) :
    (pinMode p d s).attached = s.attached := by cases p with | out q => cases q <;> rfl | inp q => cases q <;> rfl
@[simp] theorem pinMode_now (p : Pin) (d : PinDir) (s : State) :
    (pinMode p d s).now = s.now := by cases p with | out q => cases q <;> rfl | inp q => cases q <;> rfl
@[simp] theorem pinMode_lastRead (p : Pin) (d : PinDir) (s : State) :
    (pinMode p d s).lastRead = s.lastRead := by cases p with | out q => cases q <;> rfl | inp q => cases q <;> rfl
@[simp] theorem pinMode_wCtlIn (p : Pin) (d : PinDir) (s : State) :
    (pinMode p d s).wCtlIn = s.wCtlIn := by cases p with | out q => cases q <;> rfl | inp q => cases q <;> rfl
@[simp] theorem pinMode_wDataIn (p : Pin) (d : PinDir) (s : State) :
    (pinMode p d s).wDataIn = s.wDataIn := by cases p with | out q => cases q <;> rfl | inp q => cases q <;> rfl
@[simp] theorem pinMode_args (p : Pin) (d : PinDir) (s : State) :
    (pinMode p d s).args = s.args := by cases p with | out q => cases q <;> rfl | inp q => cases q <;> rfl
@[simp] theorem pinMode_outState (p : Pin) (d : PinDir) (s : State) :
    (pinMode p d s).outState = s.outState := by cases p with | out q => cases q <;> rfl | inp q => cases q <;> rfl
@[simp] theorem pinMode_outProCfg (p : Pin) (d : PinDir) (s : State) :
    (pinMode p d s).outProCfg = s.outProCfg := by cases p with | out q => cases q <;> rfl | inp q => cases q <;> rfl
@[simp] theorem pinMode_outStdCfg (p : Pin) (d : PinDir) (s : State) :
    (pinMode p d s).outStdCfg = s.outStdCfg := by cases p with | out q => cases q <;> rfl | inp q => cases q <;> rfl
@[simp] theorem pinMode_cur (p : Pin) (d : PinDir) (s : State) :
    (pinMode p d s).cur = s.cur := by cases p with | out q => cases q <;> rfl | inp q => cases q <;> rfl
@[simp] theorem pinMode_sub (p : Pin) (d : PinDir) (s : State) :
    (pinMode p d s).sub = s.sub := by cases p with | out q => cases q <;> rfl | inp q => cases q <;> rfl
@[simp] theorem pinMode_delayLeft (p : Pin) (d : PinDir) (s : State) :
    (pinMode p d s).delayLeft = s.delayLeft := by cases p with | out q => cases q <;> rfl | inp q => cases q <;> rfl
@[simp] theorem pinMode_result (p : Pin) (d : PinDir) (s : State) :
    (pinMode p d s).result = s.result := by cases p with | out q => cases q <;> rfl | inp q => cases q <;> rfl
@[simp] theorem pinMode_turned (p : Pin) (d : PinDir) (s : State) :
    (pinMode p d s).turned = s.turned := by cases p with | out q => cases q <;> rfl | inp q => cases q <;> rfl
@[simp] theorem pinMode_failure (p : Pin) (d : PinDir) (s : State) :
    (pinMode p d s).failure = s.failure := by cases p with | out q => cases q <;> rfl | inp q => cases q <;> rfl
@[simp] theorem pinMode_calls (p : Pin) (d : PinDir) (s : State) :
    (pinMode p d s).calls =
      .pinMode p d :: s.calls :=
  by cases p with | out q => cases q <;> rfl | inp q => cases q <;> rfl
@[simp] theorem pinMode_history (p : Pin) (d : PinDir) (s : State) :
    (pinMode p d s).history = s.history := by cases p with | out q => cases q <;> rfl | inp q => cases q <;> rfl
@[simp] theorem pinMode_inputs (p : Pin) (d : PinDir) (s : State) :
    (pinMode p d s).inputs = s.inputs := by cases p with | out q => cases q <;> rfl | inp q => cases q <;> rfl
@[simp] theorem pinMode_free (p : Pin) (d : PinDir) (s : State) :
    (pinMode p d s).free = s.free := by cases p with | out q => cases q <;> rfl | inp q => cases q <;> rfl

/-! ## pinWrite -/

@[simp] theorem pinWrite_cfg (p : OutPin) (v : Bool) (s : State) : (pinWrite p v s).cfg = s.cfg := by cases p <;> rfl
@[simp] theorem pinWrite_txbuf (p : OutPin) (v : Bool) (s : State) :
    (pinWrite p v s).txbuf = s.txbuf := by cases p <;> rfl
@[simp] theorem pinWrite_rxbuf (p : OutPin) (v : Bool) (s : State) :
    (pinWrite p v s).rxbuf = s.rxbuf := by cases p <;> rfl
@[simp] theorem pinWrite_phase (p : OutPin) (v : Bool) (s : State) :
    (pinWrite p v s).phase = s.phase := by cases p <;> rfl
@[simp] theorem pinWrite_cyc (p : OutPin) (v : Bool) (s : State) : (pinWrite p v s).cyc = s.cyc := by cases p <;> rfl
@[simp] theorem pinWrite_pwResult (p : OutPin) (v : Bool) (s : State) :
    (pinWrite p v s).pwResult = s.pwResult := by cases p <;> rfl
@[simp] theorem pinWrite_ok (p : OutPin) (v : Bool) (s : State) : (pinWrite p v s).ok = s.ok := by cases p <;> rfl
@[simp] theorem pinWrite_err (p : OutPin) (v : Bool) (s : State) : (pinWrite p v s).err = s.err := by cases p <;> rfl
@[simp] theorem pinWrite_outCtl (p : OutPin) (v : Bool) (s : State) :
    (pinWrite p v s).outCtl = if p = .ctlOut then v else s.outCtl := by cases p <;> rfl
@[simp] theorem pinWrite_outData (p : OutPin) (v : Bool) (s : State) :
    (pinWrite p v s).outData = if p = .dataOut then v else s.outData := by cases p <;> rfl
@[simp] theorem pinWrite_dirCtlOut (p : OutPin) (v : Bool) (s : State) :
    (pinWrite p v s).dirCtlOut = s.dirCtlOut := by cases p <;> rfl
@[simp] theorem pinWrite_dirDataOut (p : OutPin) (v : Bool) (s : State) :
    (pinWrite p v s).dirDataOut = s.dirDataOut := by cases p <;> rfl
@[simp] theorem pinWrite_dirCtlIn (p : OutPin) (v : Bool) (s : State) :
    (pinWrite p v s).dirCtlIn = s.dirCtlIn := by cases p <;> rfl
@[simp] theorem pinWrite_dirDataIn (p : OutPin) (v : Bool) (s : State) :
    (pinWrite p v s).dirDataIn = s.dirDataIn := by cases p <;> rfl
@[simp] theorem pinWrite_setupDone (p : OutPin) (v : Bool) (s : State) :
    (pinWrite p v s).setupDone = s.setupDone := by cases p <;> rfl
@[simp] theorem pinWrite_dl (p : OutPin) (v : Bool) (s : State) : (pinWrite p v s).dl = s.dl := by cases p <;> rfl
@[simp] theorem pinWrite_req (p : OutPin) (v : Bool) (s : State) : (pinWrite p v s).req = s.req := by cases p <;> rfl
@[simp] theorem pinWrite_edgeCnt (p : OutPin) (v : Bool) (s : State) :
    (pinWrite p v s).edgeCnt = s.edgeCnt := by cases p <;> rfl
@[simp] theorem pinWrite_baseCnt (p : OutPin) (v : Bool) (s : State) :
    (pinWrite p v s).baseCnt = s.baseCnt := by cases p <;> rfl
@[simp] theorem pinWrite_edgePending (p : OutPin) (v : Bool) (s : State) :
    (pinWrite p v s).edgePending = s.edgePending := by cases p <;> rfl
@[simp] theorem pinWrite_attached (p : OutPin) (v : Bool) (s : State) :
    (pinWrite p v s).attached = s.attached := by cases p <;> rfl
@[simp] theorem pinWrite_now (p : OutPin) (v : Bool) (s : State) : (pinWrite p v s).now = s.now := by cases p <;> rfl
@[simp] theorem pinWrite_lastRead (p : OutPin) (v : Bool) (s : State) :
    (pinWrite p v s).lastRead = s.lastRead := by cases p <;> rfl
@[simp] theorem pinWrite_wCtlIn (p : OutPin) (v : Bool) (s : State) :
    (pinWrite p v s).wCtlIn = s.wCtlIn := by cases p <;> rfl
@[simp] theorem pinWrite_wDataIn (p : OutPin) (v : Bool) (s : State) :
    (pinWrite p v s).wDataIn = s.wDataIn := by cases p <;> rfl
@[simp] theorem pinWrite_args (p : OutPin) (v : Bool) (s : State) :
    (pinWrite p v s).args = s.args := by cases p <;> rfl
@[simp] theorem pinWrite_outState (p : OutPin) (v : Bool) (s : State) :
    (pinWrite p v s).outState = s.outState := by cases p <;> rfl
@[simp] theorem pinWrite_outProCfg (p : OutPin) (v : Bool) (s : State) :
    (pinWrite p v s).outProCfg = s.outProCfg := by cases p <;> rfl
@[simp] theorem pinWrite_outStdCfg (p : OutPin) (v : Bool) (s : State) :
    (pinWrite p v s).outStdCfg = s.outStdCfg := by cases p <;> rfl
@[simp] theorem pinWrite_cur (p : OutPin) (v : Bool) (s : State) : (pinWrite p v s).cur = s.cur := by cases p <;> rfl
@[simp] theorem pinWrite_sub (p : OutPin) (v : Bool) (s : State) : (pinWrite p v s).sub = s.sub := by cases p <;> rfl
@[simp] theorem pinWrite_delayLeft (p : OutPin) (v : Bool) (s : State) :
    (pinWrite p v s).delayLeft = s.delayLeft := by cases p <;> rfl
@[simp] theorem pinWrite_result (p : OutPin) (v : Bool) (s : State) :
    (pinWrite p v s).result = s.result := by cases p <;> rfl
@[simp] theorem pinWrite_turned (p : OutPin) (v : Bool) (s : State) :
    (pinWrite p v s).turned = s.turned := by cases p <;> rfl
@[simp] theorem pinWrite_failure (p : OutPin) (v : Bool) (s : State) :
    (pinWrite p v s).failure = s.failure := by cases p <;> rfl
@[simp] theorem pinWrite_calls (p : OutPin) (v : Bool) (s : State) :
    (pinWrite p v s).calls = .pinWrite p v :: s.calls := by cases p <;> rfl
@[simp] theorem pinWrite_history (p : OutPin) (v : Bool) (s : State) :
    (pinWrite p v s).history = s.history := by cases p <;> rfl
@[simp] theorem pinWrite_inputs (p : OutPin) (v : Bool) (s : State) :
    (pinWrite p v s).inputs = s.inputs := by cases p <;> rfl
@[simp] theorem pinWrite_free (p : OutPin) (v : Bool) (s : State) :
    (pinWrite p v s).free = s.free := by cases p <;> rfl

/-! ## pinRead -/

@[simp] theorem pinRead_cfg (p : InPin) (s : State) : (pinRead p s).cfg = s.cfg := rfl
@[simp] theorem pinRead_txbuf (p : InPin) (s : State) : (pinRead p s).txbuf = s.txbuf := rfl
@[simp] theorem pinRead_rxbuf (p : InPin) (s : State) : (pinRead p s).rxbuf = s.rxbuf := rfl
@[simp] theorem pinRead_phase (p : InPin) (s : State) : (pinRead p s).phase = s.phase := rfl
@[simp] theorem pinRead_cyc (p : InPin) (s : State) : (pinRead p s).cyc = s.cyc := rfl
@[simp] theorem pinRead_pwResult (p : InPin) (s : State) : (pinRead p s).pwResult = s.pwResult := rfl
@[simp] theorem pinRead_ok (p : InPin) (s : State) : (pinRead p s).ok = s.ok := rfl
@[simp] theorem pinRead_err (p : InPin) (s : State) : (pinRead p s).err = s.err := rfl
@[simp] theorem pinRead_outCtl (p : InPin) (s : State) : (pinRead p s).outCtl = s.outCtl := rfl
@[simp] theorem pinRead_outData (p : InPin) (s : State) : (pinRead p s).outData = s.outData := rfl
@[simp] theorem pinRead_dirCtlOut (p : InPin) (s : State) : (pinRead p s).dirCtlOut = s.dirCtlOut := rfl
@[simp] theorem pinRead_dirDataOut (p : InPin) (s : State) : (pinRead p s).dirDataOut = s.dirDataOut := rfl
@[simp] theorem pinRead_dirCtlIn (p : InPin) (s : State) : (pinRead p s).dirCtlIn = s.dirCtlIn := rfl
@[simp] theorem pinRead_dirDataIn (p : InPin) (s : State) : (pinRead p s).dirDataIn = s.dirDataIn := rfl
@[simp] theorem pinRead_setupDone (p : InPin) (s : State) : (pinRead p s).setupDone = s.setupDone := rfl
@[simp] theorem pinRead_dl (p : InPin) (s : State) : (pinRead p s).dl = s.dl := rfl
@[simp] theorem pinRead_req (p : InPin) (s : State) : (pinRead p s).req = s.req := rfl
@[simp] theorem pinRead_edgeCnt (p : InPin) (s : State) : (pinRead p s).edgeCnt = s.edgeCnt := rfl
@[simp] theorem pinRead_baseCnt (p : InPin) (s : State) : (pinRead p s).baseCnt = s.baseCnt := rfl
@[simp] theorem pinRead_edgePending (p : InPin) (s : State) : (pinRead p s).edgePending = s.edgePending := rfl
@[simp] theorem pinRead_attached (p : InPin) (s : State) : (pinRead p s).attached = s.attached := rfl
@[simp] theorem pinRead_now (p : InPin) (s : State) : (pinRead p s).now = s.now := rfl
@[simp] theorem pinRead_lastRead (p : InPin) (s : State) : (pinRead p s).lastRead = s.lastRead := rfl
@[simp] theorem pinRead_wCtlIn (p : InPin) (s : State) : (pinRead p s).wCtlIn = s.wCtlIn := rfl
@[simp] theorem pinRead_wDataIn (p : InPin) (s : State) : (pinRead p s).wDataIn = s.wDataIn := rfl
@[simp] theorem pinRead_args (p : InPin) (s : State) : (pinRead p s).args = s.args := rfl
@[simp] theorem pinRead_outState (p : InPin) (s : State) : (pinRead p s).outState = s.outState := rfl
@[simp] theorem pinRead_outProCfg (p : InPin) (s : State) : (pinRead p s).outProCfg = s.outProCfg := rfl
@[simp] theorem pinRead_outStdCfg (p : InPin) (s : State) : (pinRead p s).outStdCfg = s.outStdCfg := rfl
@[simp] theorem pinRead_cur (p : InPin) (s : State) : (pinRead p s).cur = s.cur := rfl
@[simp] theorem pinRead_sub (p : InPin) (s : State) : (pinRead p s).sub = s.sub := rfl
@[simp] theorem pinRead_delayLeft (p : InPin) (s : State) : (pinRead p s).delayLeft = s.delayLeft := rfl
@[simp] theorem pinRead_result (p : InPin) (s : State) : (pinRead p s).result = s.result := rfl
@[simp] theorem pinRead_turned (p : InPin) (s : State) : (pinRead p s).turned = s.turned := rfl
@[simp] theorem pinRead_failure (p : InPin) (s : State) : (pinRead p s).failure = s.failure := rfl
@[simp] theorem pinRead_calls (p : InPin) (s : State) :
    (pinRead p s).calls = .pinRead p (wireLevel p s) :: s.calls := rfl
@[simp] theorem pinRead_history (p : InPin) (s : State) : (pinRead p s).history = s.history := rfl
@[simp] theorem pinRead_inputs (p : InPin) (s : State) : (pinRead p s).inputs = s.inputs := rfl
@[simp] theorem pinRead_free (p : InPin) (s : State) : (pinRead p s).free = s.free := rfl

/-! ## clockRead -/

@[simp] theorem clockRead_cfg (s : State) : (clockRead s).cfg = s.cfg := rfl
@[simp] theorem clockRead_txbuf (s : State) : (clockRead s).txbuf = s.txbuf := rfl
@[simp] theorem clockRead_rxbuf (s : State) : (clockRead s).rxbuf = s.rxbuf := rfl
@[simp] theorem clockRead_phase (s : State) : (clockRead s).phase = s.phase := rfl
@[simp] theorem clockRead_cyc (s : State) : (clockRead s).cyc = s.cyc := rfl
@[simp] theorem clockRead_pwResult (s : State) : (clockRead s).pwResult = s.pwResult := rfl
@[simp] theorem clockRead_ok (s : State) : (clockRead s).ok = s.ok := rfl
@[simp] theorem clockRead_err (s : State) : (clockRead s).err = s.err := rfl
@[simp] theorem clockRead_outCtl (s : State) : (clockRead s).outCtl = s.outCtl := rfl
@[simp] theorem clockRead_outData (s : State) : (clockRead s).outData = s.outData := rfl
@[simp] theorem clockRead_dirCtlOut (s : State) : (clockRead s).dirCtlOut = s.dirCtlOut := rfl
@[simp] theorem clockRead_dirDataOut (s : State) : (clockRead s).dirDataOut = s.dirDataOut := rfl
@[simp] theorem clockRead_dirCtlIn (s : State) : (clockRead s).dirCtlIn = s.dirCtlIn := rfl
@[simp] theorem clockRead_dirDataIn (s : State) : (clockRead s).dirDataIn = s.dirDataIn := rfl
@[simp] theorem clockRead_setupDone (s : State) : (clockRead s).setupDone = s.setupDone := rfl
@[simp] theorem clockRead_dl (s : State) : (clockRead s).dl = s.dl := rfl
@[simp] theorem clockRead_req (s : State) : (clockRead s).req = s.req := rfl
@[simp] theorem clockRead_edgeCnt (s : State) : (clockRead s).edgeCnt = s.edgeCnt := rfl
@[simp] theorem clockRead_baseCnt (s : State) : (clockRead s).baseCnt = s.baseCnt := rfl
@[simp] theorem clockRead_edgePending (s : State) : (clockRead s).edgePending = s.edgePending := rfl
@[simp] theorem clockRead_attached (s : State) : (clockRead s).attached = s.attached := rfl
@[simp] theorem clockRead_now (s : State) : (clockRead s).now = s.now := rfl
@[simp] theorem clockRead_lastRead (s : State) : (clockRead s).lastRead = some s.now := rfl
@[simp] theorem clockRead_wCtlIn (s : State) : (clockRead s).wCtlIn = s.wCtlIn := rfl
@[simp] theorem clockRead_wDataIn (s : State) : (clockRead s).wDataIn = s.wDataIn := rfl
@[simp] theorem clockRead_args (s : State) : (clockRead s).args = s.args := rfl
@[simp] theorem clockRead_outState (s : State) : (clockRead s).outState = s.outState := rfl
@[simp] theorem clockRead_outProCfg (s : State) : (clockRead s).outProCfg = s.outProCfg := rfl
@[simp] theorem clockRead_outStdCfg (s : State) : (clockRead s).outStdCfg = s.outStdCfg := rfl
@[simp] theorem clockRead_cur (s : State) : (clockRead s).cur = s.cur := rfl
@[simp] theorem clockRead_sub (s : State) : (clockRead s).sub = s.sub := rfl
@[simp] theorem clockRead_delayLeft (s : State) : (clockRead s).delayLeft = s.delayLeft := rfl
@[simp] theorem clockRead_result (s : State) : (clockRead s).result = s.result := rfl
@[simp] theorem clockRead_turned (s : State) : (clockRead s).turned = s.turned := rfl
@[simp] theorem clockRead_failure (s : State) : (clockRead s).failure = s.failure := rfl
@[simp] theorem clockRead_calls (s : State) : (clockRead s).calls = .clockRead s.now :: s.calls := rfl
@[simp] theorem clockRead_history (s : State) : (clockRead s).history = s.history := rfl
@[simp] theorem clockRead_inputs (s : State) : (clockRead s).inputs = s.inputs := rfl
@[simp] theorem clockRead_free (s : State) : (clockRead s).free = s.free := rfl

/-! ## delayUs -/

@[simp] theorem delayUs_cfg (n : Word) (s : State) : (delayUs n s).cfg = s.cfg := rfl
@[simp] theorem delayUs_txbuf (n : Word) (s : State) : (delayUs n s).txbuf = s.txbuf := rfl
@[simp] theorem delayUs_rxbuf (n : Word) (s : State) : (delayUs n s).rxbuf = s.rxbuf := rfl
@[simp] theorem delayUs_phase (n : Word) (s : State) : (delayUs n s).phase = s.phase := rfl
@[simp] theorem delayUs_cyc (n : Word) (s : State) : (delayUs n s).cyc = s.cyc := rfl
@[simp] theorem delayUs_pwResult (n : Word) (s : State) : (delayUs n s).pwResult = s.pwResult := rfl
@[simp] theorem delayUs_ok (n : Word) (s : State) : (delayUs n s).ok = s.ok := rfl
@[simp] theorem delayUs_err (n : Word) (s : State) : (delayUs n s).err = s.err := rfl
@[simp] theorem delayUs_outCtl (n : Word) (s : State) : (delayUs n s).outCtl = s.outCtl := rfl
@[simp] theorem delayUs_outData (n : Word) (s : State) : (delayUs n s).outData = s.outData := rfl
@[simp] theorem delayUs_dirCtlOut (n : Word) (s : State) : (delayUs n s).dirCtlOut = s.dirCtlOut := rfl
@[simp] theorem delayUs_dirDataOut (n : Word) (s : State) : (delayUs n s).dirDataOut = s.dirDataOut := rfl
@[simp] theorem delayUs_dirCtlIn (n : Word) (s : State) : (delayUs n s).dirCtlIn = s.dirCtlIn := rfl
@[simp] theorem delayUs_dirDataIn (n : Word) (s : State) : (delayUs n s).dirDataIn = s.dirDataIn := rfl
@[simp] theorem delayUs_setupDone (n : Word) (s : State) : (delayUs n s).setupDone = s.setupDone := rfl
@[simp] theorem delayUs_dl (n : Word) (s : State) : (delayUs n s).dl = s.dl := rfl
@[simp] theorem delayUs_req (n : Word) (s : State) : (delayUs n s).req = s.req := rfl
@[simp] theorem delayUs_edgeCnt (n : Word) (s : State) : (delayUs n s).edgeCnt = s.edgeCnt := rfl
@[simp] theorem delayUs_baseCnt (n : Word) (s : State) : (delayUs n s).baseCnt = s.baseCnt := rfl
@[simp] theorem delayUs_edgePending (n : Word) (s : State) : (delayUs n s).edgePending = s.edgePending := rfl
@[simp] theorem delayUs_attached (n : Word) (s : State) : (delayUs n s).attached = s.attached := rfl
@[simp] theorem delayUs_now (n : Word) (s : State) : (delayUs n s).now = s.now := rfl
@[simp] theorem delayUs_lastRead (n : Word) (s : State) : (delayUs n s).lastRead = s.lastRead := rfl
@[simp] theorem delayUs_wCtlIn (n : Word) (s : State) : (delayUs n s).wCtlIn = s.wCtlIn := rfl
@[simp] theorem delayUs_wDataIn (n : Word) (s : State) : (delayUs n s).wDataIn = s.wDataIn := rfl
@[simp] theorem delayUs_args (n : Word) (s : State) : (delayUs n s).args = s.args := rfl
@[simp] theorem delayUs_outState (n : Word) (s : State) : (delayUs n s).outState = s.outState := rfl
@[simp] theorem delayUs_outProCfg (n : Word) (s : State) : (delayUs n s).outProCfg = s.outProCfg := rfl
@[simp] theorem delayUs_outStdCfg (n : Word) (s : State) : (delayUs n s).outStdCfg = s.outStdCfg := rfl
@[simp] theorem delayUs_cur (n : Word) (s : State) : (delayUs n s).cur = s.cur := rfl
@[simp] theorem delayUs_sub (n : Word) (s : State) : (delayUs n s).sub = s.sub := rfl
@[simp] theorem delayUs_delayLeft (n : Word) (s : State) : (delayUs n s).delayLeft = n.toNat := rfl
@[simp] theorem delayUs_result (n : Word) (s : State) : (delayUs n s).result = s.result := rfl
@[simp] theorem delayUs_turned (n : Word) (s : State) : (delayUs n s).turned = s.turned := rfl
@[simp] theorem delayUs_failure (n : Word) (s : State) : (delayUs n s).failure = s.failure := rfl
@[simp] theorem delayUs_calls (n : Word) (s : State) : (delayUs n s).calls = .delayUs n :: s.calls := rfl
@[simp] theorem delayUs_history (n : Word) (s : State) : (delayUs n s).history = s.history := rfl
@[simp] theorem delayUs_inputs (n : Word) (s : State) : (delayUs n s).inputs = s.inputs := rfl
@[simp] theorem delayUs_free (n : Word) (s : State) : (delayUs n s).free = s.free := rfl

/-! ## attachFalling -/

@[simp] theorem attachFalling_cfg (s : State) : (attachFalling s).cfg = s.cfg := rfl
@[simp] theorem attachFalling_txbuf (s : State) : (attachFalling s).txbuf = s.txbuf := rfl
@[simp] theorem attachFalling_rxbuf (s : State) : (attachFalling s).rxbuf = s.rxbuf := rfl
@[simp] theorem attachFalling_phase (s : State) : (attachFalling s).phase = s.phase := rfl
@[simp] theorem attachFalling_cyc (s : State) : (attachFalling s).cyc = s.cyc := rfl
@[simp] theorem attachFalling_pwResult (s : State) : (attachFalling s).pwResult = s.pwResult := rfl
@[simp] theorem attachFalling_ok (s : State) : (attachFalling s).ok = s.ok := rfl
@[simp] theorem attachFalling_err (s : State) : (attachFalling s).err = s.err := rfl
@[simp] theorem attachFalling_outCtl (s : State) : (attachFalling s).outCtl = s.outCtl := rfl
@[simp] theorem attachFalling_outData (s : State) : (attachFalling s).outData = s.outData := rfl
@[simp] theorem attachFalling_dirCtlOut (s : State) : (attachFalling s).dirCtlOut = s.dirCtlOut := rfl
@[simp] theorem attachFalling_dirDataOut (s : State) : (attachFalling s).dirDataOut = s.dirDataOut := rfl
@[simp] theorem attachFalling_dirCtlIn (s : State) : (attachFalling s).dirCtlIn = s.dirCtlIn := rfl
@[simp] theorem attachFalling_dirDataIn (s : State) : (attachFalling s).dirDataIn = s.dirDataIn := rfl
@[simp] theorem attachFalling_setupDone (s : State) : (attachFalling s).setupDone = s.setupDone := rfl
@[simp] theorem attachFalling_dl (s : State) : (attachFalling s).dl = s.dl := rfl
@[simp] theorem attachFalling_req (s : State) : (attachFalling s).req = s.req := rfl
@[simp] theorem attachFalling_edgeCnt (s : State) : (attachFalling s).edgeCnt = s.edgeCnt := rfl
@[simp] theorem attachFalling_baseCnt (s : State) : (attachFalling s).baseCnt = s.baseCnt := rfl
@[simp] theorem attachFalling_edgePending (s : State) : (attachFalling s).edgePending = s.edgePending := rfl
@[simp] theorem attachFalling_attached (s : State) : (attachFalling s).attached = true := rfl
@[simp] theorem attachFalling_now (s : State) : (attachFalling s).now = s.now := rfl
@[simp] theorem attachFalling_lastRead (s : State) : (attachFalling s).lastRead = s.lastRead := rfl
@[simp] theorem attachFalling_wCtlIn (s : State) : (attachFalling s).wCtlIn = s.wCtlIn := rfl
@[simp] theorem attachFalling_wDataIn (s : State) : (attachFalling s).wDataIn = s.wDataIn := rfl
@[simp] theorem attachFalling_args (s : State) : (attachFalling s).args = s.args := rfl
@[simp] theorem attachFalling_outState (s : State) : (attachFalling s).outState = s.outState := rfl
@[simp] theorem attachFalling_outProCfg (s : State) : (attachFalling s).outProCfg = s.outProCfg := rfl
@[simp] theorem attachFalling_outStdCfg (s : State) : (attachFalling s).outStdCfg = s.outStdCfg := rfl
@[simp] theorem attachFalling_cur (s : State) : (attachFalling s).cur = s.cur := rfl
@[simp] theorem attachFalling_sub (s : State) : (attachFalling s).sub = s.sub := rfl
@[simp] theorem attachFalling_delayLeft (s : State) : (attachFalling s).delayLeft = s.delayLeft := rfl
@[simp] theorem attachFalling_result (s : State) : (attachFalling s).result = s.result := rfl
@[simp] theorem attachFalling_turned (s : State) : (attachFalling s).turned = s.turned := rfl
@[simp] theorem attachFalling_failure (s : State) : (attachFalling s).failure = s.failure := rfl
@[simp] theorem attachFalling_calls (s : State) : (attachFalling s).calls = .attachFalling .ctlIn :: s.calls := rfl
@[simp] theorem attachFalling_history (s : State) : (attachFalling s).history = s.history := rfl
@[simp] theorem attachFalling_inputs (s : State) : (attachFalling s).inputs = s.inputs := rfl
@[simp] theorem attachFalling_free (s : State) : (attachFalling s).free = s.free := rfl

/-! ## counterRead -/

@[simp] theorem counterRead_cfg (s : State) : (counterRead s).cfg = s.cfg := rfl
@[simp] theorem counterRead_txbuf (s : State) : (counterRead s).txbuf = s.txbuf := rfl
@[simp] theorem counterRead_rxbuf (s : State) : (counterRead s).rxbuf = s.rxbuf := rfl
@[simp] theorem counterRead_phase (s : State) : (counterRead s).phase = s.phase := rfl
@[simp] theorem counterRead_cyc (s : State) : (counterRead s).cyc = s.cyc := rfl
@[simp] theorem counterRead_pwResult (s : State) : (counterRead s).pwResult = s.pwResult := rfl
@[simp] theorem counterRead_ok (s : State) : (counterRead s).ok = s.ok := rfl
@[simp] theorem counterRead_err (s : State) : (counterRead s).err = s.err := rfl
@[simp] theorem counterRead_outCtl (s : State) : (counterRead s).outCtl = s.outCtl := rfl
@[simp] theorem counterRead_outData (s : State) : (counterRead s).outData = s.outData := rfl
@[simp] theorem counterRead_dirCtlOut (s : State) : (counterRead s).dirCtlOut = s.dirCtlOut := rfl
@[simp] theorem counterRead_dirDataOut (s : State) : (counterRead s).dirDataOut = s.dirDataOut := rfl
@[simp] theorem counterRead_dirCtlIn (s : State) : (counterRead s).dirCtlIn = s.dirCtlIn := rfl
@[simp] theorem counterRead_dirDataIn (s : State) : (counterRead s).dirDataIn = s.dirDataIn := rfl
@[simp] theorem counterRead_setupDone (s : State) : (counterRead s).setupDone = s.setupDone := rfl
@[simp] theorem counterRead_dl (s : State) : (counterRead s).dl = s.dl := rfl
@[simp] theorem counterRead_req (s : State) : (counterRead s).req = s.req := rfl
@[simp] theorem counterRead_edgeCnt (s : State) : (counterRead s).edgeCnt = s.edgeCnt := rfl
@[simp] theorem counterRead_baseCnt (s : State) : (counterRead s).baseCnt = s.baseCnt := rfl
@[simp] theorem counterRead_edgePending (s : State) : (counterRead s).edgePending = s.edgePending := rfl
@[simp] theorem counterRead_attached (s : State) : (counterRead s).attached = s.attached := rfl
@[simp] theorem counterRead_now (s : State) : (counterRead s).now = s.now := rfl
@[simp] theorem counterRead_lastRead (s : State) : (counterRead s).lastRead = s.lastRead := rfl
@[simp] theorem counterRead_wCtlIn (s : State) : (counterRead s).wCtlIn = s.wCtlIn := rfl
@[simp] theorem counterRead_wDataIn (s : State) : (counterRead s).wDataIn = s.wDataIn := rfl
@[simp] theorem counterRead_args (s : State) : (counterRead s).args = s.args := rfl
@[simp] theorem counterRead_outState (s : State) : (counterRead s).outState = s.outState := rfl
@[simp] theorem counterRead_outProCfg (s : State) : (counterRead s).outProCfg = s.outProCfg := rfl
@[simp] theorem counterRead_outStdCfg (s : State) : (counterRead s).outStdCfg = s.outStdCfg := rfl
@[simp] theorem counterRead_cur (s : State) : (counterRead s).cur = s.cur := rfl
@[simp] theorem counterRead_sub (s : State) : (counterRead s).sub = s.sub := rfl
@[simp] theorem counterRead_delayLeft (s : State) : (counterRead s).delayLeft = s.delayLeft := rfl
@[simp] theorem counterRead_result (s : State) : (counterRead s).result = s.result := rfl
@[simp] theorem counterRead_turned (s : State) : (counterRead s).turned = s.turned := rfl
@[simp] theorem counterRead_failure (s : State) : (counterRead s).failure = s.failure := rfl
@[simp] theorem counterRead_calls (s : State) : (counterRead s).calls = .counterRead s.edgeCnt :: s.calls := rfl
@[simp] theorem counterRead_history (s : State) : (counterRead s).history = s.history := rfl
@[simp] theorem counterRead_inputs (s : State) : (counterRead s).inputs = s.inputs := rfl
@[simp] theorem counterRead_free (s : State) : (counterRead s).free = s.free := rfl

/-! ## turnAway -/

@[simp] theorem turnAway_cfg (why : TurnAway) (s : State) : (turnAway why s).cfg = s.cfg := rfl
@[simp] theorem turnAway_txbuf (why : TurnAway) (s : State) : (turnAway why s).txbuf = s.txbuf := rfl
@[simp] theorem turnAway_rxbuf (why : TurnAway) (s : State) : (turnAway why s).rxbuf = s.rxbuf := rfl
@[simp] theorem turnAway_phase (why : TurnAway) (s : State) : (turnAway why s).phase = s.phase := rfl
@[simp] theorem turnAway_cyc (why : TurnAway) (s : State) : (turnAway why s).cyc = s.cyc := rfl
@[simp] theorem turnAway_pwResult (why : TurnAway) (s : State) : (turnAway why s).pwResult = s.pwResult := rfl
@[simp] theorem turnAway_ok (why : TurnAway) (s : State) : (turnAway why s).ok = s.ok := rfl
@[simp] theorem turnAway_err (why : TurnAway) (s : State) : (turnAway why s).err = s.err := rfl
@[simp] theorem turnAway_outCtl (why : TurnAway) (s : State) : (turnAway why s).outCtl = s.outCtl := rfl
@[simp] theorem turnAway_outData (why : TurnAway) (s : State) : (turnAway why s).outData = s.outData := rfl
@[simp] theorem turnAway_dirCtlOut (why : TurnAway) (s : State) : (turnAway why s).dirCtlOut = s.dirCtlOut := rfl
@[simp] theorem turnAway_dirDataOut (why : TurnAway) (s : State) : (turnAway why s).dirDataOut = s.dirDataOut := rfl
@[simp] theorem turnAway_dirCtlIn (why : TurnAway) (s : State) : (turnAway why s).dirCtlIn = s.dirCtlIn := rfl
@[simp] theorem turnAway_dirDataIn (why : TurnAway) (s : State) : (turnAway why s).dirDataIn = s.dirDataIn := rfl
@[simp] theorem turnAway_setupDone (why : TurnAway) (s : State) : (turnAway why s).setupDone = s.setupDone := rfl
@[simp] theorem turnAway_dl (why : TurnAway) (s : State) : (turnAway why s).dl = s.dl := rfl
@[simp] theorem turnAway_req (why : TurnAway) (s : State) : (turnAway why s).req = s.req := rfl
@[simp] theorem turnAway_edgeCnt (why : TurnAway) (s : State) : (turnAway why s).edgeCnt = s.edgeCnt := rfl
@[simp] theorem turnAway_baseCnt (why : TurnAway) (s : State) : (turnAway why s).baseCnt = s.baseCnt := rfl
@[simp] theorem turnAway_edgePending (why : TurnAway) (s : State) :
    (turnAway why s).edgePending = s.edgePending := rfl
@[simp] theorem turnAway_attached (why : TurnAway) (s : State) : (turnAway why s).attached = s.attached := rfl
@[simp] theorem turnAway_now (why : TurnAway) (s : State) : (turnAway why s).now = s.now := rfl
@[simp] theorem turnAway_lastRead (why : TurnAway) (s : State) : (turnAway why s).lastRead = s.lastRead := rfl
@[simp] theorem turnAway_wCtlIn (why : TurnAway) (s : State) : (turnAway why s).wCtlIn = s.wCtlIn := rfl
@[simp] theorem turnAway_wDataIn (why : TurnAway) (s : State) : (turnAway why s).wDataIn = s.wDataIn := rfl
@[simp] theorem turnAway_args (why : TurnAway) (s : State) : (turnAway why s).args = s.args := rfl
@[simp] theorem turnAway_outState (why : TurnAway) (s : State) : (turnAway why s).outState = s.outState := rfl
@[simp] theorem turnAway_outProCfg (why : TurnAway) (s : State) : (turnAway why s).outProCfg = s.outProCfg := rfl
@[simp] theorem turnAway_outStdCfg (why : TurnAway) (s : State) : (turnAway why s).outStdCfg = s.outStdCfg := rfl
@[simp] theorem turnAway_cur (why : TurnAway) (s : State) : (turnAway why s).cur = s.cur := rfl
@[simp] theorem turnAway_sub (why : TurnAway) (s : State) : (turnAway why s).sub = s.sub := rfl
@[simp] theorem turnAway_delayLeft (why : TurnAway) (s : State) : (turnAway why s).delayLeft = s.delayLeft := rfl
@[simp] theorem turnAway_result (why : TurnAway) (s : State) : (turnAway why s).result = s.result := rfl
@[simp] theorem turnAway_turned (why : TurnAway) (s : State) : (turnAway why s).turned = some why := rfl
@[simp] theorem turnAway_failure (why : TurnAway) (s : State) : (turnAway why s).failure = s.failure := rfl
@[simp] theorem turnAway_calls (why : TurnAway) (s : State) : (turnAway why s).calls = s.calls := rfl
@[simp] theorem turnAway_history (why : TurnAway) (s : State) : (turnAway why s).history = s.history := rfl
@[simp] theorem turnAway_inputs (why : TurnAway) (s : State) : (turnAway why s).inputs = s.inputs := rfl
@[simp] theorem turnAway_free (why : TurnAway) (s : State) : (turnAway why s).free = s.free := rfl

/-! ## launch -/

@[simp] theorem launch_cfg (i : Instr) (s : State) : (launch i s).cfg = s.cfg := rfl
@[simp] theorem launch_txbuf (i : Instr) (s : State) : (launch i s).txbuf = s.txbuf := rfl
@[simp] theorem launch_rxbuf (i : Instr) (s : State) : (launch i s).rxbuf = s.rxbuf := rfl
@[simp] theorem launch_phase (i : Instr) (s : State) : (launch i s).phase = .idle := rfl
@[simp] theorem launch_cyc (i : Instr) (s : State) : (launch i s).cyc = 0 := rfl
@[simp] theorem launch_pwResult (i : Instr) (s : State) : (launch i s).pwResult = s.pwResult := rfl
@[simp] theorem launch_ok (i : Instr) (s : State) : (launch i s).ok = s.ok := rfl
@[simp] theorem launch_err (i : Instr) (s : State) : (launch i s).err = s.err := rfl
@[simp] theorem launch_outCtl (i : Instr) (s : State) : (launch i s).outCtl = s.outCtl := rfl
@[simp] theorem launch_outData (i : Instr) (s : State) : (launch i s).outData = s.outData := rfl
@[simp] theorem launch_dirCtlOut (i : Instr) (s : State) : (launch i s).dirCtlOut = s.dirCtlOut := rfl
@[simp] theorem launch_dirDataOut (i : Instr) (s : State) : (launch i s).dirDataOut = s.dirDataOut := rfl
@[simp] theorem launch_dirCtlIn (i : Instr) (s : State) : (launch i s).dirCtlIn = s.dirCtlIn := rfl
@[simp] theorem launch_dirDataIn (i : Instr) (s : State) : (launch i s).dirDataIn = s.dirDataIn := rfl
@[simp] theorem launch_setupDone (i : Instr) (s : State) : (launch i s).setupDone = s.setupDone := rfl
@[simp] theorem launch_dl (i : Instr) (s : State) : (launch i s).dl = s.dl := rfl
@[simp] theorem launch_req (i : Instr) (s : State) : (launch i s).req = s.req := rfl
@[simp] theorem launch_edgeCnt (i : Instr) (s : State) : (launch i s).edgeCnt = s.edgeCnt := rfl
@[simp] theorem launch_baseCnt (i : Instr) (s : State) : (launch i s).baseCnt = s.baseCnt := rfl
@[simp] theorem launch_edgePending (i : Instr) (s : State) : (launch i s).edgePending = s.edgePending := rfl
@[simp] theorem launch_attached (i : Instr) (s : State) : (launch i s).attached = s.attached := rfl
@[simp] theorem launch_now (i : Instr) (s : State) : (launch i s).now = s.now := rfl
@[simp] theorem launch_lastRead (i : Instr) (s : State) : (launch i s).lastRead = s.lastRead := rfl
@[simp] theorem launch_wCtlIn (i : Instr) (s : State) : (launch i s).wCtlIn = s.wCtlIn := rfl
@[simp] theorem launch_wDataIn (i : Instr) (s : State) : (launch i s).wDataIn = s.wDataIn := rfl
@[simp] theorem launch_args (i : Instr) (s : State) : (launch i s).args = s.args := rfl
@[simp] theorem launch_outState (i : Instr) (s : State) : (launch i s).outState = s.outState := rfl
@[simp] theorem launch_outProCfg (i : Instr) (s : State) : (launch i s).outProCfg = s.outProCfg := rfl
@[simp] theorem launch_outStdCfg (i : Instr) (s : State) : (launch i s).outStdCfg = s.outStdCfg := rfl
@[simp] theorem launch_cur (i : Instr) (s : State) : (launch i s).cur = some i := rfl
@[simp] theorem launch_sub (i : Instr) (s : State) : (launch i s).sub = .start := rfl
@[simp] theorem launch_delayLeft (i : Instr) (s : State) : (launch i s).delayLeft = 0 := rfl
@[simp] theorem launch_result (i : Instr) (s : State) : (launch i s).result = .nothing := rfl
@[simp] theorem launch_turned (i : Instr) (s : State) : (launch i s).turned = none := rfl
@[simp] theorem launch_failure (i : Instr) (s : State) : (launch i s).failure = none := rfl
@[simp] theorem launch_calls (i : Instr) (s : State) : (launch i s).calls = [] := rfl
@[simp] theorem launch_history (i : Instr) (s : State) : (launch i s).history = s.history := rfl
@[simp] theorem launch_inputs (i : Instr) (s : State) : (launch i s).inputs = s.inputs := rfl
@[simp] theorem launch_free (i : Instr) (s : State) : (launch i s).free = s.free := rfl

/-! ## finishWith -/

@[simp] theorem finishWith_cfg (a : Answer) (s : State) : (finishWith a s).cfg = s.cfg := rfl
@[simp] theorem finishWith_txbuf (a : Answer) (s : State) : (finishWith a s).txbuf = s.txbuf := rfl
@[simp] theorem finishWith_rxbuf (a : Answer) (s : State) : (finishWith a s).rxbuf = s.rxbuf := rfl
@[simp] theorem finishWith_phase (a : Answer) (s : State) : (finishWith a s).phase = .idle := rfl
@[simp] theorem finishWith_cyc (a : Answer) (s : State) : (finishWith a s).cyc = 0 := rfl
@[simp] theorem finishWith_pwResult (a : Answer) (s : State) : (finishWith a s).pwResult = s.pwResult := rfl
@[simp] theorem finishWith_ok (a : Answer) (s : State) : (finishWith a s).ok = s.ok := rfl
@[simp] theorem finishWith_err (a : Answer) (s : State) : (finishWith a s).err = s.err := rfl
@[simp] theorem finishWith_outCtl (a : Answer) (s : State) : (finishWith a s).outCtl = s.outCtl := rfl
@[simp] theorem finishWith_outData (a : Answer) (s : State) : (finishWith a s).outData = s.outData := rfl
@[simp] theorem finishWith_dirCtlOut (a : Answer) (s : State) : (finishWith a s).dirCtlOut = s.dirCtlOut := rfl
@[simp] theorem finishWith_dirDataOut (a : Answer) (s : State) : (finishWith a s).dirDataOut = s.dirDataOut := rfl
@[simp] theorem finishWith_dirCtlIn (a : Answer) (s : State) : (finishWith a s).dirCtlIn = s.dirCtlIn := rfl
@[simp] theorem finishWith_dirDataIn (a : Answer) (s : State) : (finishWith a s).dirDataIn = s.dirDataIn := rfl
@[simp] theorem finishWith_setupDone (a : Answer) (s : State) : (finishWith a s).setupDone = s.setupDone := rfl
@[simp] theorem finishWith_dl (a : Answer) (s : State) : (finishWith a s).dl = s.dl := rfl
@[simp] theorem finishWith_req (a : Answer) (s : State) : (finishWith a s).req = s.req := rfl
@[simp] theorem finishWith_edgeCnt (a : Answer) (s : State) : (finishWith a s).edgeCnt = s.edgeCnt := rfl
@[simp] theorem finishWith_baseCnt (a : Answer) (s : State) : (finishWith a s).baseCnt = s.baseCnt := rfl
@[simp] theorem finishWith_edgePending (a : Answer) (s : State) : (finishWith a s).edgePending = s.edgePending := rfl
@[simp] theorem finishWith_attached (a : Answer) (s : State) : (finishWith a s).attached = s.attached := rfl
@[simp] theorem finishWith_now (a : Answer) (s : State) : (finishWith a s).now = s.now := rfl
@[simp] theorem finishWith_lastRead (a : Answer) (s : State) : (finishWith a s).lastRead = s.lastRead := rfl
@[simp] theorem finishWith_wCtlIn (a : Answer) (s : State) : (finishWith a s).wCtlIn = s.wCtlIn := rfl
@[simp] theorem finishWith_wDataIn (a : Answer) (s : State) : (finishWith a s).wDataIn = s.wDataIn := rfl
@[simp] theorem finishWith_args (a : Answer) (s : State) : (finishWith a s).args = s.args := rfl
@[simp] theorem finishWith_outState (a : Answer) (s : State) : (finishWith a s).outState = s.outState := rfl
@[simp] theorem finishWith_outProCfg (a : Answer) (s : State) : (finishWith a s).outProCfg = s.outProCfg := rfl
@[simp] theorem finishWith_outStdCfg (a : Answer) (s : State) : (finishWith a s).outStdCfg = s.outStdCfg := rfl
@[simp] theorem finishWith_cur (a : Answer) (s : State) : (finishWith a s).cur = none := rfl
@[simp] theorem finishWith_sub (a : Answer) (s : State) : (finishWith a s).sub = .start := rfl
@[simp] theorem finishWith_delayLeft (a : Answer) (s : State) : (finishWith a s).delayLeft = 0 := rfl
@[simp] theorem finishWith_result (a : Answer) (s : State) : (finishWith a s).result = a.result := rfl
@[simp] theorem finishWith_turned (a : Answer) (s : State) : (finishWith a s).turned = s.turned := rfl
@[simp] theorem finishWith_failure (a : Answer) (s : State) : (finishWith a s).failure = s.failure := rfl
@[simp] theorem finishWith_calls (a : Answer) (s : State) : (finishWith a s).calls = s.calls := rfl
@[simp] theorem finishWith_history (a : Answer) (s : State) : (finishWith a s).history = a :: s.history := rfl
@[simp] theorem finishWith_inputs (a : Answer) (s : State) : (finishWith a s).inputs = s.inputs := rfl
@[simp] theorem finishWith_free (a : Answer) (s : State) : (finishWith a s).free = s.free := rfl

/-! ## finish -/

@[simp] theorem finish_cfg (r : Result) (s : State) : (finish r s).cfg = s.cfg := rfl
@[simp] theorem finish_txbuf (r : Result) (s : State) : (finish r s).txbuf = s.txbuf := rfl
@[simp] theorem finish_rxbuf (r : Result) (s : State) : (finish r s).rxbuf = s.rxbuf := rfl
@[simp] theorem finish_phase (r : Result) (s : State) : (finish r s).phase = .idle := rfl
@[simp] theorem finish_cyc (r : Result) (s : State) : (finish r s).cyc = 0 := rfl
@[simp] theorem finish_pwResult (r : Result) (s : State) : (finish r s).pwResult = s.pwResult := rfl
@[simp] theorem finish_ok (r : Result) (s : State) : (finish r s).ok = s.ok := rfl
@[simp] theorem finish_err (r : Result) (s : State) : (finish r s).err = s.err := rfl
@[simp] theorem finish_outCtl (r : Result) (s : State) : (finish r s).outCtl = s.outCtl := rfl
@[simp] theorem finish_outData (r : Result) (s : State) : (finish r s).outData = s.outData := rfl
@[simp] theorem finish_dirCtlOut (r : Result) (s : State) : (finish r s).dirCtlOut = s.dirCtlOut := rfl
@[simp] theorem finish_dirDataOut (r : Result) (s : State) : (finish r s).dirDataOut = s.dirDataOut := rfl
@[simp] theorem finish_dirCtlIn (r : Result) (s : State) : (finish r s).dirCtlIn = s.dirCtlIn := rfl
@[simp] theorem finish_dirDataIn (r : Result) (s : State) : (finish r s).dirDataIn = s.dirDataIn := rfl
@[simp] theorem finish_setupDone (r : Result) (s : State) : (finish r s).setupDone = s.setupDone := rfl
@[simp] theorem finish_dl (r : Result) (s : State) : (finish r s).dl = s.dl := rfl
@[simp] theorem finish_req (r : Result) (s : State) : (finish r s).req = s.req := rfl
@[simp] theorem finish_edgeCnt (r : Result) (s : State) : (finish r s).edgeCnt = s.edgeCnt := rfl
@[simp] theorem finish_baseCnt (r : Result) (s : State) : (finish r s).baseCnt = s.baseCnt := rfl
@[simp] theorem finish_edgePending (r : Result) (s : State) : (finish r s).edgePending = s.edgePending := rfl
@[simp] theorem finish_attached (r : Result) (s : State) : (finish r s).attached = s.attached := rfl
@[simp] theorem finish_now (r : Result) (s : State) : (finish r s).now = s.now := rfl
@[simp] theorem finish_lastRead (r : Result) (s : State) : (finish r s).lastRead = s.lastRead := rfl
@[simp] theorem finish_wCtlIn (r : Result) (s : State) : (finish r s).wCtlIn = s.wCtlIn := rfl
@[simp] theorem finish_wDataIn (r : Result) (s : State) : (finish r s).wDataIn = s.wDataIn := rfl
@[simp] theorem finish_args (r : Result) (s : State) : (finish r s).args = s.args := rfl
@[simp] theorem finish_outState (r : Result) (s : State) : (finish r s).outState = s.outState := rfl
@[simp] theorem finish_outProCfg (r : Result) (s : State) : (finish r s).outProCfg = s.outProCfg := rfl
@[simp] theorem finish_outStdCfg (r : Result) (s : State) : (finish r s).outStdCfg = s.outStdCfg := rfl
@[simp] theorem finish_cur (r : Result) (s : State) : (finish r s).cur = none := rfl
@[simp] theorem finish_sub (r : Result) (s : State) : (finish r s).sub = .start := rfl
@[simp] theorem finish_delayLeft (r : Result) (s : State) : (finish r s).delayLeft = 0 := rfl
@[simp] theorem finish_result (r : Result) (s : State) : (finish r s).result = r := rfl
@[simp] theorem finish_turned (r : Result) (s : State) : (finish r s).turned = s.turned := rfl
@[simp] theorem finish_failure (r : Result) (s : State) : (finish r s).failure = s.failure := rfl
@[simp] theorem finish_calls (r : Result) (s : State) : (finish r s).calls = s.calls := rfl
@[simp] theorem finish_history (r : Result) (s : State) : (finish r s).history = ⟨r, .nothing⟩ :: s.history := rfl
@[simp] theorem finish_inputs (r : Result) (s : State) : (finish r s).inputs = s.inputs := rfl
@[simp] theorem finish_free (r : Result) (s : State) : (finish r s).free = s.free := rfl

/-! ## storeRecord -/

@[simp] theorem storeRecord_cfg (rec : OutRecord) (s : State) :
    (storeRecord rec s).cfg = s.cfg := by cases rec <;> rfl
@[simp] theorem storeRecord_txbuf (rec : OutRecord) (s : State) :
    (storeRecord rec s).txbuf = s.txbuf := by cases rec <;> rfl
@[simp] theorem storeRecord_rxbuf (rec : OutRecord) (s : State) :
    (storeRecord rec s).rxbuf = s.rxbuf := by cases rec <;> rfl
@[simp] theorem storeRecord_phase (rec : OutRecord) (s : State) :
    (storeRecord rec s).phase = s.phase := by cases rec <;> rfl
@[simp] theorem storeRecord_cyc (rec : OutRecord) (s : State) :
    (storeRecord rec s).cyc = s.cyc := by cases rec <;> rfl
@[simp] theorem storeRecord_pwResult (rec : OutRecord) (s : State) :
    (storeRecord rec s).pwResult = s.pwResult := by cases rec <;> rfl
@[simp] theorem storeRecord_ok (rec : OutRecord) (s : State) : (storeRecord rec s).ok = s.ok := by cases rec <;> rfl
@[simp] theorem storeRecord_err (rec : OutRecord) (s : State) :
    (storeRecord rec s).err = s.err := by cases rec <;> rfl
@[simp] theorem storeRecord_outCtl (rec : OutRecord) (s : State) :
    (storeRecord rec s).outCtl = s.outCtl := by cases rec <;> rfl
@[simp] theorem storeRecord_outData (rec : OutRecord) (s : State) :
    (storeRecord rec s).outData = s.outData := by cases rec <;> rfl
@[simp] theorem storeRecord_dirCtlOut (rec : OutRecord) (s : State) :
    (storeRecord rec s).dirCtlOut = s.dirCtlOut := by cases rec <;> rfl
@[simp] theorem storeRecord_dirDataOut (rec : OutRecord) (s : State) :
    (storeRecord rec s).dirDataOut = s.dirDataOut := by cases rec <;> rfl
@[simp] theorem storeRecord_dirCtlIn (rec : OutRecord) (s : State) :
    (storeRecord rec s).dirCtlIn = s.dirCtlIn := by cases rec <;> rfl
@[simp] theorem storeRecord_dirDataIn (rec : OutRecord) (s : State) :
    (storeRecord rec s).dirDataIn = s.dirDataIn := by cases rec <;> rfl
@[simp] theorem storeRecord_setupDone (rec : OutRecord) (s : State) :
    (storeRecord rec s).setupDone = s.setupDone := by cases rec <;> rfl
@[simp] theorem storeRecord_dl (rec : OutRecord) (s : State) : (storeRecord rec s).dl = s.dl := by cases rec <;> rfl
@[simp] theorem storeRecord_req (rec : OutRecord) (s : State) :
    (storeRecord rec s).req = s.req := by cases rec <;> rfl
@[simp] theorem storeRecord_edgeCnt (rec : OutRecord) (s : State) :
    (storeRecord rec s).edgeCnt = s.edgeCnt := by cases rec <;> rfl
@[simp] theorem storeRecord_baseCnt (rec : OutRecord) (s : State) :
    (storeRecord rec s).baseCnt = s.baseCnt := by cases rec <;> rfl
@[simp] theorem storeRecord_edgePending (rec : OutRecord) (s : State) :
    (storeRecord rec s).edgePending = s.edgePending := by cases rec <;> rfl
@[simp] theorem storeRecord_attached (rec : OutRecord) (s : State) :
    (storeRecord rec s).attached = s.attached := by cases rec <;> rfl
@[simp] theorem storeRecord_now (rec : OutRecord) (s : State) :
    (storeRecord rec s).now = s.now := by cases rec <;> rfl
@[simp] theorem storeRecord_lastRead (rec : OutRecord) (s : State) :
    (storeRecord rec s).lastRead = s.lastRead := by cases rec <;> rfl
@[simp] theorem storeRecord_wCtlIn (rec : OutRecord) (s : State) :
    (storeRecord rec s).wCtlIn = s.wCtlIn := by cases rec <;> rfl
@[simp] theorem storeRecord_wDataIn (rec : OutRecord) (s : State) :
    (storeRecord rec s).wDataIn = s.wDataIn := by cases rec <;> rfl
@[simp] theorem storeRecord_args (rec : OutRecord) (s : State) :
    (storeRecord rec s).args = s.args := by cases rec <;> rfl
@[simp] theorem storeRecord_outState (rec : OutRecord) (s : State) :
    (storeRecord rec s).outState = match rec with | .state r => r | _ => s.outState := by cases rec <;> rfl
@[simp] theorem storeRecord_outProCfg (rec : OutRecord) (s : State) :
    (storeRecord rec s).outProCfg = match rec with | .proConfig r => r | _ => s.outProCfg := by cases rec <;> rfl
@[simp] theorem storeRecord_outStdCfg (rec : OutRecord) (s : State) :
    (storeRecord rec s).outStdCfg = match rec with | .stdConfig r => r | _ => s.outStdCfg := by cases rec <;> rfl
@[simp] theorem storeRecord_cur (rec : OutRecord) (s : State) :
    (storeRecord rec s).cur = s.cur := by cases rec <;> rfl
@[simp] theorem storeRecord_sub (rec : OutRecord) (s : State) :
    (storeRecord rec s).sub = s.sub := by cases rec <;> rfl
@[simp] theorem storeRecord_delayLeft (rec : OutRecord) (s : State) :
    (storeRecord rec s).delayLeft = s.delayLeft := by cases rec <;> rfl
@[simp] theorem storeRecord_result (rec : OutRecord) (s : State) :
    (storeRecord rec s).result = s.result := by cases rec <;> rfl
@[simp] theorem storeRecord_turned (rec : OutRecord) (s : State) :
    (storeRecord rec s).turned = s.turned := by cases rec <;> rfl
@[simp] theorem storeRecord_failure (rec : OutRecord) (s : State) :
    (storeRecord rec s).failure = s.failure := by cases rec <;> rfl
@[simp] theorem storeRecord_calls (rec : OutRecord) (s : State) :
    (storeRecord rec s).calls = s.calls := by cases rec <;> rfl
@[simp] theorem storeRecord_history (rec : OutRecord) (s : State) :
    (storeRecord rec s).history = s.history := by cases rec <;> rfl
@[simp] theorem storeRecord_inputs (rec : OutRecord) (s : State) :
    (storeRecord rec s).inputs = s.inputs := by cases rec <;> rfl
@[simp] theorem storeRecord_free (rec : OutRecord) (s : State) :
    (storeRecord rec s).free = s.free := by cases rec <;> rfl

/-! ## finishFrame -/

@[simp] theorem finishFrame_cfg (rec : OutRecord) (s : State) :
    (finishFrame rec s).cfg = s.cfg := by cases rec <;> rfl
@[simp] theorem finishFrame_txbuf (rec : OutRecord) (s : State) :
    (finishFrame rec s).txbuf = s.txbuf := by cases rec <;> rfl
@[simp] theorem finishFrame_rxbuf (rec : OutRecord) (s : State) :
    (finishFrame rec s).rxbuf = s.rxbuf := by cases rec <;> rfl
@[simp] theorem finishFrame_phase (rec : OutRecord) (s : State) :
    (finishFrame rec s).phase = .idle := by cases rec <;> rfl
@[simp] theorem finishFrame_cyc (rec : OutRecord) (s : State) : (finishFrame rec s).cyc = 0 := by cases rec <;> rfl
@[simp] theorem finishFrame_pwResult (rec : OutRecord) (s : State) :
    (finishFrame rec s).pwResult = s.pwResult := by cases rec <;> rfl
@[simp] theorem finishFrame_ok (rec : OutRecord) (s : State) : (finishFrame rec s).ok = s.ok := by cases rec <;> rfl
@[simp] theorem finishFrame_err (rec : OutRecord) (s : State) : (finishFrame rec s).err = 0 := by cases rec <;> rfl
@[simp] theorem finishFrame_outCtl (rec : OutRecord) (s : State) :
    (finishFrame rec s).outCtl = s.outCtl := by cases rec <;> rfl
@[simp] theorem finishFrame_outData (rec : OutRecord) (s : State) :
    (finishFrame rec s).outData = s.outData := by cases rec <;> rfl
@[simp] theorem finishFrame_dirCtlOut (rec : OutRecord) (s : State) :
    (finishFrame rec s).dirCtlOut = s.dirCtlOut := by cases rec <;> rfl
@[simp] theorem finishFrame_dirDataOut (rec : OutRecord) (s : State) :
    (finishFrame rec s).dirDataOut = s.dirDataOut := by cases rec <;> rfl
@[simp] theorem finishFrame_dirCtlIn (rec : OutRecord) (s : State) :
    (finishFrame rec s).dirCtlIn = s.dirCtlIn := by cases rec <;> rfl
@[simp] theorem finishFrame_dirDataIn (rec : OutRecord) (s : State) :
    (finishFrame rec s).dirDataIn = s.dirDataIn := by cases rec <;> rfl
@[simp] theorem finishFrame_setupDone (rec : OutRecord) (s : State) :
    (finishFrame rec s).setupDone = s.setupDone := by cases rec <;> rfl
@[simp] theorem finishFrame_dl (rec : OutRecord) (s : State) : (finishFrame rec s).dl = s.dl := by cases rec <;> rfl
@[simp] theorem finishFrame_req (rec : OutRecord) (s : State) :
    (finishFrame rec s).req = s.req := by cases rec <;> rfl
@[simp] theorem finishFrame_edgeCnt (rec : OutRecord) (s : State) :
    (finishFrame rec s).edgeCnt = s.edgeCnt := by cases rec <;> rfl
@[simp] theorem finishFrame_baseCnt (rec : OutRecord) (s : State) :
    (finishFrame rec s).baseCnt = s.baseCnt := by cases rec <;> rfl
@[simp] theorem finishFrame_edgePending (rec : OutRecord) (s : State) :
    (finishFrame rec s).edgePending = s.edgePending := by cases rec <;> rfl
@[simp] theorem finishFrame_attached (rec : OutRecord) (s : State) :
    (finishFrame rec s).attached = s.attached := by cases rec <;> rfl
@[simp] theorem finishFrame_now (rec : OutRecord) (s : State) :
    (finishFrame rec s).now = s.now := by cases rec <;> rfl
@[simp] theorem finishFrame_lastRead (rec : OutRecord) (s : State) :
    (finishFrame rec s).lastRead = s.lastRead := by cases rec <;> rfl
@[simp] theorem finishFrame_wCtlIn (rec : OutRecord) (s : State) :
    (finishFrame rec s).wCtlIn = s.wCtlIn := by cases rec <;> rfl
@[simp] theorem finishFrame_wDataIn (rec : OutRecord) (s : State) :
    (finishFrame rec s).wDataIn = s.wDataIn := by cases rec <;> rfl
@[simp] theorem finishFrame_args (rec : OutRecord) (s : State) :
    (finishFrame rec s).args = s.args := by cases rec <;> rfl
@[simp] theorem finishFrame_outState (rec : OutRecord) (s : State) :
    (finishFrame rec s).outState = match rec with | .state r => r | _ => s.outState := by cases rec <;> rfl
@[simp] theorem finishFrame_outProCfg (rec : OutRecord) (s : State) :
    (finishFrame rec s).outProCfg = match rec with | .proConfig r => r | _ => s.outProCfg := by cases rec <;> rfl
@[simp] theorem finishFrame_outStdCfg (rec : OutRecord) (s : State) :
    (finishFrame rec s).outStdCfg = match rec with | .stdConfig r => r | _ => s.outStdCfg := by cases rec <;> rfl
@[simp] theorem finishFrame_cur (rec : OutRecord) (s : State) : (finishFrame rec s).cur = none := by cases rec <;> rfl
@[simp] theorem finishFrame_sub (rec : OutRecord) (s : State) :
    (finishFrame rec s).sub = .start := by cases rec <;> rfl
@[simp] theorem finishFrame_delayLeft (rec : OutRecord) (s : State) :
    (finishFrame rec s).delayLeft = 0 := by cases rec <;> rfl
@[simp] theorem finishFrame_result (rec : OutRecord) (s : State) :
    (finishFrame rec s).result = .code 0 := by cases rec <;> rfl
@[simp] theorem finishFrame_turned (rec : OutRecord) (s : State) :
    (finishFrame rec s).turned = s.turned := by cases rec <;> rfl
@[simp] theorem finishFrame_failure (rec : OutRecord) (s : State) :
    (finishFrame rec s).failure = s.failure := by cases rec <;> rfl
@[simp] theorem finishFrame_calls (rec : OutRecord) (s : State) :
    (finishFrame rec s).calls = s.calls := by cases rec <;> rfl
@[simp] theorem finishFrame_history (rec : OutRecord) (s : State) :
    (finishFrame rec s).history = ⟨.code 0, rec⟩ :: s.history := by cases rec <;> rfl
@[simp] theorem finishFrame_inputs (rec : OutRecord) (s : State) :
    (finishFrame rec s).inputs = s.inputs := by cases rec <;> rfl
@[simp] theorem finishFrame_free (rec : OutRecord) (s : State) :
    (finishFrame rec s).free = s.free := by cases rec <;> rfl

/-! ## finishCode -/

@[simp] theorem finishCode_cfg (code : Word) (s : State) : (finishCode code s).cfg = s.cfg := rfl
@[simp] theorem finishCode_txbuf (code : Word) (s : State) : (finishCode code s).txbuf = s.txbuf := rfl
@[simp] theorem finishCode_rxbuf (code : Word) (s : State) : (finishCode code s).rxbuf = s.rxbuf := rfl
@[simp] theorem finishCode_phase (code : Word) (s : State) : (finishCode code s).phase = .idle := rfl
@[simp] theorem finishCode_cyc (code : Word) (s : State) : (finishCode code s).cyc = 0 := rfl
@[simp] theorem finishCode_pwResult (code : Word) (s : State) : (finishCode code s).pwResult = s.pwResult := rfl
@[simp] theorem finishCode_ok (code : Word) (s : State) : (finishCode code s).ok = s.ok := rfl
@[simp] theorem finishCode_err (code : Word) (s : State) : (finishCode code s).err = code := rfl
@[simp] theorem finishCode_outCtl (code : Word) (s : State) : (finishCode code s).outCtl = s.outCtl := rfl
@[simp] theorem finishCode_outData (code : Word) (s : State) : (finishCode code s).outData = s.outData := rfl
@[simp] theorem finishCode_dirCtlOut (code : Word) (s : State) : (finishCode code s).dirCtlOut = s.dirCtlOut := rfl
@[simp] theorem finishCode_dirDataOut (code : Word) (s : State) : (finishCode code s).dirDataOut = s.dirDataOut := rfl
@[simp] theorem finishCode_dirCtlIn (code : Word) (s : State) : (finishCode code s).dirCtlIn = s.dirCtlIn := rfl
@[simp] theorem finishCode_dirDataIn (code : Word) (s : State) : (finishCode code s).dirDataIn = s.dirDataIn := rfl
@[simp] theorem finishCode_setupDone (code : Word) (s : State) : (finishCode code s).setupDone = s.setupDone := rfl
@[simp] theorem finishCode_dl (code : Word) (s : State) : (finishCode code s).dl = s.dl := rfl
@[simp] theorem finishCode_req (code : Word) (s : State) : (finishCode code s).req = s.req := rfl
@[simp] theorem finishCode_edgeCnt (code : Word) (s : State) : (finishCode code s).edgeCnt = s.edgeCnt := rfl
@[simp] theorem finishCode_baseCnt (code : Word) (s : State) : (finishCode code s).baseCnt = s.baseCnt := rfl
@[simp] theorem finishCode_edgePending (code : Word) (s : State) :
    (finishCode code s).edgePending = s.edgePending := rfl
@[simp] theorem finishCode_attached (code : Word) (s : State) : (finishCode code s).attached = s.attached := rfl
@[simp] theorem finishCode_now (code : Word) (s : State) : (finishCode code s).now = s.now := rfl
@[simp] theorem finishCode_lastRead (code : Word) (s : State) : (finishCode code s).lastRead = s.lastRead := rfl
@[simp] theorem finishCode_wCtlIn (code : Word) (s : State) : (finishCode code s).wCtlIn = s.wCtlIn := rfl
@[simp] theorem finishCode_wDataIn (code : Word) (s : State) : (finishCode code s).wDataIn = s.wDataIn := rfl
@[simp] theorem finishCode_args (code : Word) (s : State) : (finishCode code s).args = s.args := rfl
@[simp] theorem finishCode_outState (code : Word) (s : State) : (finishCode code s).outState = s.outState := rfl
@[simp] theorem finishCode_outProCfg (code : Word) (s : State) : (finishCode code s).outProCfg = s.outProCfg := rfl
@[simp] theorem finishCode_outStdCfg (code : Word) (s : State) : (finishCode code s).outStdCfg = s.outStdCfg := rfl
@[simp] theorem finishCode_cur (code : Word) (s : State) : (finishCode code s).cur = none := rfl
@[simp] theorem finishCode_sub (code : Word) (s : State) : (finishCode code s).sub = .start := rfl
@[simp] theorem finishCode_delayLeft (code : Word) (s : State) : (finishCode code s).delayLeft = 0 := rfl
@[simp] theorem finishCode_result (code : Word) (s : State) : (finishCode code s).result = .code code := rfl
@[simp] theorem finishCode_turned (code : Word) (s : State) : (finishCode code s).turned = s.turned := rfl
@[simp] theorem finishCode_failure (code : Word) (s : State) : (finishCode code s).failure = s.failure := rfl
@[simp] theorem finishCode_calls (code : Word) (s : State) : (finishCode code s).calls = s.calls := rfl
@[simp] theorem finishCode_history (code : Word) (s : State) :
    (finishCode code s).history = ⟨.code code, .nothing⟩ :: s.history := rfl
@[simp] theorem finishCode_inputs (code : Word) (s : State) : (finishCode code s).inputs = s.inputs := rfl
@[simp] theorem finishCode_free (code : Word) (s : State) : (finishCode code s).free = s.free := rfl

/-! ## goto -/

@[simp] theorem goto_cfg (p : Phase) (c : BitVec 7) (sub : Sub) (s : State) : (goto p c sub s).cfg = s.cfg := rfl
@[simp] theorem goto_txbuf (p : Phase) (c : BitVec 7) (sub : Sub) (s : State) :
    (goto p c sub s).txbuf = s.txbuf := rfl
@[simp] theorem goto_rxbuf (p : Phase) (c : BitVec 7) (sub : Sub) (s : State) :
    (goto p c sub s).rxbuf = s.rxbuf := rfl
@[simp] theorem goto_phase (p : Phase) (c : BitVec 7) (sub : Sub) (s : State) : (goto p c sub s).phase = p := rfl
@[simp] theorem goto_cyc (p : Phase) (c : BitVec 7) (sub : Sub) (s : State) : (goto p c sub s).cyc = c := rfl
@[simp] theorem goto_pwResult (p : Phase) (c : BitVec 7) (sub : Sub) (s : State) :
    (goto p c sub s).pwResult = s.pwResult := rfl
@[simp] theorem goto_ok (p : Phase) (c : BitVec 7) (sub : Sub) (s : State) : (goto p c sub s).ok = s.ok := rfl
@[simp] theorem goto_err (p : Phase) (c : BitVec 7) (sub : Sub) (s : State) : (goto p c sub s).err = s.err := rfl
@[simp] theorem goto_outCtl (p : Phase) (c : BitVec 7) (sub : Sub) (s : State) :
    (goto p c sub s).outCtl = s.outCtl := rfl
@[simp] theorem goto_outData (p : Phase) (c : BitVec 7) (sub : Sub) (s : State) :
    (goto p c sub s).outData = s.outData := rfl
@[simp] theorem goto_dirCtlOut (p : Phase) (c : BitVec 7) (sub : Sub) (s : State) :
    (goto p c sub s).dirCtlOut = s.dirCtlOut := rfl
@[simp] theorem goto_dirDataOut (p : Phase) (c : BitVec 7) (sub : Sub) (s : State) :
    (goto p c sub s).dirDataOut = s.dirDataOut := rfl
@[simp] theorem goto_dirCtlIn (p : Phase) (c : BitVec 7) (sub : Sub) (s : State) :
    (goto p c sub s).dirCtlIn = s.dirCtlIn := rfl
@[simp] theorem goto_dirDataIn (p : Phase) (c : BitVec 7) (sub : Sub) (s : State) :
    (goto p c sub s).dirDataIn = s.dirDataIn := rfl
@[simp] theorem goto_setupDone (p : Phase) (c : BitVec 7) (sub : Sub) (s : State) :
    (goto p c sub s).setupDone = s.setupDone := rfl
@[simp] theorem goto_dl (p : Phase) (c : BitVec 7) (sub : Sub) (s : State) : (goto p c sub s).dl = s.dl := rfl
@[simp] theorem goto_req (p : Phase) (c : BitVec 7) (sub : Sub) (s : State) : (goto p c sub s).req = s.req := rfl
@[simp] theorem goto_edgeCnt (p : Phase) (c : BitVec 7) (sub : Sub) (s : State) :
    (goto p c sub s).edgeCnt = s.edgeCnt := rfl
@[simp] theorem goto_baseCnt (p : Phase) (c : BitVec 7) (sub : Sub) (s : State) :
    (goto p c sub s).baseCnt = s.baseCnt := rfl
@[simp] theorem goto_edgePending (p : Phase) (c : BitVec 7) (sub : Sub) (s : State) :
    (goto p c sub s).edgePending = s.edgePending := rfl
@[simp] theorem goto_attached (p : Phase) (c : BitVec 7) (sub : Sub) (s : State) :
    (goto p c sub s).attached = s.attached := rfl
@[simp] theorem goto_now (p : Phase) (c : BitVec 7) (sub : Sub) (s : State) : (goto p c sub s).now = s.now := rfl
@[simp] theorem goto_lastRead (p : Phase) (c : BitVec 7) (sub : Sub) (s : State) :
    (goto p c sub s).lastRead = s.lastRead := rfl
@[simp] theorem goto_wCtlIn (p : Phase) (c : BitVec 7) (sub : Sub) (s : State) :
    (goto p c sub s).wCtlIn = s.wCtlIn := rfl
@[simp] theorem goto_wDataIn (p : Phase) (c : BitVec 7) (sub : Sub) (s : State) :
    (goto p c sub s).wDataIn = s.wDataIn := rfl
@[simp] theorem goto_args (p : Phase) (c : BitVec 7) (sub : Sub) (s : State) : (goto p c sub s).args = s.args := rfl
@[simp] theorem goto_outState (p : Phase) (c : BitVec 7) (sub : Sub) (s : State) :
    (goto p c sub s).outState = s.outState := rfl
@[simp] theorem goto_outProCfg (p : Phase) (c : BitVec 7) (sub : Sub) (s : State) :
    (goto p c sub s).outProCfg = s.outProCfg := rfl
@[simp] theorem goto_outStdCfg (p : Phase) (c : BitVec 7) (sub : Sub) (s : State) :
    (goto p c sub s).outStdCfg = s.outStdCfg := rfl
@[simp] theorem goto_cur (p : Phase) (c : BitVec 7) (sub : Sub) (s : State) : (goto p c sub s).cur = s.cur := rfl
@[simp] theorem goto_sub (p : Phase) (c : BitVec 7) (sub : Sub) (s : State) : (goto p c sub s).sub = sub := rfl
@[simp] theorem goto_delayLeft (p : Phase) (c : BitVec 7) (sub : Sub) (s : State) :
    (goto p c sub s).delayLeft = s.delayLeft := rfl
@[simp] theorem goto_result (p : Phase) (c : BitVec 7) (sub : Sub) (s : State) :
    (goto p c sub s).result = s.result := rfl
@[simp] theorem goto_turned (p : Phase) (c : BitVec 7) (sub : Sub) (s : State) :
    (goto p c sub s).turned = s.turned := rfl
@[simp] theorem goto_failure (p : Phase) (c : BitVec 7) (sub : Sub) (s : State) :
    (goto p c sub s).failure = s.failure := rfl
@[simp] theorem goto_calls (p : Phase) (c : BitVec 7) (sub : Sub) (s : State) :
    (goto p c sub s).calls = s.calls := rfl
@[simp] theorem goto_history (p : Phase) (c : BitVec 7) (sub : Sub) (s : State) :
    (goto p c sub s).history = s.history := rfl
@[simp] theorem goto_inputs (p : Phase) (c : BitVec 7) (sub : Sub) (s : State) :
    (goto p c sub s).inputs = s.inputs := rfl
@[simp] theorem goto_free (p : Phase) (c : BitVec 7) (sub : Sub) (s : State) : (goto p c sub s).free = s.free := rfl

/-! ## setPulse -/

@[simp] theorem setPulse_cfg (r : PulseResult) (s : State) : (setPulse r s).cfg = s.cfg := rfl
@[simp] theorem setPulse_txbuf (r : PulseResult) (s : State) : (setPulse r s).txbuf = s.txbuf := rfl
@[simp] theorem setPulse_rxbuf (r : PulseResult) (s : State) : (setPulse r s).rxbuf = s.rxbuf := rfl
@[simp] theorem setPulse_phase (r : PulseResult) (s : State) : (setPulse r s).phase = s.phase := rfl
@[simp] theorem setPulse_cyc (r : PulseResult) (s : State) : (setPulse r s).cyc = s.cyc := rfl
@[simp] theorem setPulse_pwResult (r : PulseResult) (s : State) : (setPulse r s).pwResult = r := rfl
@[simp] theorem setPulse_ok (r : PulseResult) (s : State) : (setPulse r s).ok = s.ok := rfl
@[simp] theorem setPulse_err (r : PulseResult) (s : State) : (setPulse r s).err = s.err := rfl
@[simp] theorem setPulse_outCtl (r : PulseResult) (s : State) : (setPulse r s).outCtl = s.outCtl := rfl
@[simp] theorem setPulse_outData (r : PulseResult) (s : State) : (setPulse r s).outData = s.outData := rfl
@[simp] theorem setPulse_dirCtlOut (r : PulseResult) (s : State) : (setPulse r s).dirCtlOut = s.dirCtlOut := rfl
@[simp] theorem setPulse_dirDataOut (r : PulseResult) (s : State) : (setPulse r s).dirDataOut = s.dirDataOut := rfl
@[simp] theorem setPulse_dirCtlIn (r : PulseResult) (s : State) : (setPulse r s).dirCtlIn = s.dirCtlIn := rfl
@[simp] theorem setPulse_dirDataIn (r : PulseResult) (s : State) : (setPulse r s).dirDataIn = s.dirDataIn := rfl
@[simp] theorem setPulse_setupDone (r : PulseResult) (s : State) : (setPulse r s).setupDone = s.setupDone := rfl
@[simp] theorem setPulse_dl (r : PulseResult) (s : State) : (setPulse r s).dl = s.dl := rfl
@[simp] theorem setPulse_req (r : PulseResult) (s : State) : (setPulse r s).req = s.req := rfl
@[simp] theorem setPulse_edgeCnt (r : PulseResult) (s : State) : (setPulse r s).edgeCnt = s.edgeCnt := rfl
@[simp] theorem setPulse_baseCnt (r : PulseResult) (s : State) : (setPulse r s).baseCnt = s.baseCnt := rfl
@[simp] theorem setPulse_edgePending (r : PulseResult) (s : State) : (setPulse r s).edgePending = s.edgePending := rfl
@[simp] theorem setPulse_attached (r : PulseResult) (s : State) : (setPulse r s).attached = s.attached := rfl
@[simp] theorem setPulse_now (r : PulseResult) (s : State) : (setPulse r s).now = s.now := rfl
@[simp] theorem setPulse_lastRead (r : PulseResult) (s : State) : (setPulse r s).lastRead = s.lastRead := rfl
@[simp] theorem setPulse_wCtlIn (r : PulseResult) (s : State) : (setPulse r s).wCtlIn = s.wCtlIn := rfl
@[simp] theorem setPulse_wDataIn (r : PulseResult) (s : State) : (setPulse r s).wDataIn = s.wDataIn := rfl
@[simp] theorem setPulse_args (r : PulseResult) (s : State) : (setPulse r s).args = s.args := rfl
@[simp] theorem setPulse_outState (r : PulseResult) (s : State) : (setPulse r s).outState = s.outState := rfl
@[simp] theorem setPulse_outProCfg (r : PulseResult) (s : State) : (setPulse r s).outProCfg = s.outProCfg := rfl
@[simp] theorem setPulse_outStdCfg (r : PulseResult) (s : State) : (setPulse r s).outStdCfg = s.outStdCfg := rfl
@[simp] theorem setPulse_cur (r : PulseResult) (s : State) : (setPulse r s).cur = s.cur := rfl
@[simp] theorem setPulse_sub (r : PulseResult) (s : State) : (setPulse r s).sub = s.sub := rfl
@[simp] theorem setPulse_delayLeft (r : PulseResult) (s : State) : (setPulse r s).delayLeft = s.delayLeft := rfl
@[simp] theorem setPulse_result (r : PulseResult) (s : State) : (setPulse r s).result = s.result := rfl
@[simp] theorem setPulse_turned (r : PulseResult) (s : State) : (setPulse r s).turned = s.turned := rfl
@[simp] theorem setPulse_failure (r : PulseResult) (s : State) : (setPulse r s).failure = s.failure := rfl
@[simp] theorem setPulse_calls (r : PulseResult) (s : State) : (setPulse r s).calls = s.calls := rfl
@[simp] theorem setPulse_history (r : PulseResult) (s : State) : (setPulse r s).history = s.history := rfl
@[simp] theorem setPulse_inputs (r : PulseResult) (s : State) : (setPulse r s).inputs = s.inputs := rfl
@[simp] theorem setPulse_free (r : PulseResult) (s : State) : (setPulse r s).free = s.free := rfl

/-! ## setOk -/

@[simp] theorem setOk_cfg (v : Bool) (s : State) : (setOk v s).cfg = s.cfg := rfl
@[simp] theorem setOk_txbuf (v : Bool) (s : State) : (setOk v s).txbuf = s.txbuf := rfl
@[simp] theorem setOk_rxbuf (v : Bool) (s : State) : (setOk v s).rxbuf = s.rxbuf := rfl
@[simp] theorem setOk_phase (v : Bool) (s : State) : (setOk v s).phase = s.phase := rfl
@[simp] theorem setOk_cyc (v : Bool) (s : State) : (setOk v s).cyc = s.cyc := rfl
@[simp] theorem setOk_pwResult (v : Bool) (s : State) : (setOk v s).pwResult = s.pwResult := rfl
@[simp] theorem setOk_ok (v : Bool) (s : State) : (setOk v s).ok = v := rfl
@[simp] theorem setOk_err (v : Bool) (s : State) : (setOk v s).err = s.err := rfl
@[simp] theorem setOk_outCtl (v : Bool) (s : State) : (setOk v s).outCtl = s.outCtl := rfl
@[simp] theorem setOk_outData (v : Bool) (s : State) : (setOk v s).outData = s.outData := rfl
@[simp] theorem setOk_dirCtlOut (v : Bool) (s : State) : (setOk v s).dirCtlOut = s.dirCtlOut := rfl
@[simp] theorem setOk_dirDataOut (v : Bool) (s : State) : (setOk v s).dirDataOut = s.dirDataOut := rfl
@[simp] theorem setOk_dirCtlIn (v : Bool) (s : State) : (setOk v s).dirCtlIn = s.dirCtlIn := rfl
@[simp] theorem setOk_dirDataIn (v : Bool) (s : State) : (setOk v s).dirDataIn = s.dirDataIn := rfl
@[simp] theorem setOk_setupDone (v : Bool) (s : State) : (setOk v s).setupDone = s.setupDone := rfl
@[simp] theorem setOk_dl (v : Bool) (s : State) : (setOk v s).dl = s.dl := rfl
@[simp] theorem setOk_req (v : Bool) (s : State) : (setOk v s).req = s.req := rfl
@[simp] theorem setOk_edgeCnt (v : Bool) (s : State) : (setOk v s).edgeCnt = s.edgeCnt := rfl
@[simp] theorem setOk_baseCnt (v : Bool) (s : State) : (setOk v s).baseCnt = s.baseCnt := rfl
@[simp] theorem setOk_edgePending (v : Bool) (s : State) : (setOk v s).edgePending = s.edgePending := rfl
@[simp] theorem setOk_attached (v : Bool) (s : State) : (setOk v s).attached = s.attached := rfl
@[simp] theorem setOk_now (v : Bool) (s : State) : (setOk v s).now = s.now := rfl
@[simp] theorem setOk_lastRead (v : Bool) (s : State) : (setOk v s).lastRead = s.lastRead := rfl
@[simp] theorem setOk_wCtlIn (v : Bool) (s : State) : (setOk v s).wCtlIn = s.wCtlIn := rfl
@[simp] theorem setOk_wDataIn (v : Bool) (s : State) : (setOk v s).wDataIn = s.wDataIn := rfl
@[simp] theorem setOk_args (v : Bool) (s : State) : (setOk v s).args = s.args := rfl
@[simp] theorem setOk_outState (v : Bool) (s : State) : (setOk v s).outState = s.outState := rfl
@[simp] theorem setOk_outProCfg (v : Bool) (s : State) : (setOk v s).outProCfg = s.outProCfg := rfl
@[simp] theorem setOk_outStdCfg (v : Bool) (s : State) : (setOk v s).outStdCfg = s.outStdCfg := rfl
@[simp] theorem setOk_cur (v : Bool) (s : State) : (setOk v s).cur = s.cur := rfl
@[simp] theorem setOk_sub (v : Bool) (s : State) : (setOk v s).sub = s.sub := rfl
@[simp] theorem setOk_delayLeft (v : Bool) (s : State) : (setOk v s).delayLeft = s.delayLeft := rfl
@[simp] theorem setOk_result (v : Bool) (s : State) : (setOk v s).result = s.result := rfl
@[simp] theorem setOk_turned (v : Bool) (s : State) : (setOk v s).turned = s.turned := rfl
@[simp] theorem setOk_failure (v : Bool) (s : State) : (setOk v s).failure = s.failure := rfl
@[simp] theorem setOk_calls (v : Bool) (s : State) : (setOk v s).calls = s.calls := rfl
@[simp] theorem setOk_history (v : Bool) (s : State) : (setOk v s).history = s.history := rfl
@[simp] theorem setOk_inputs (v : Bool) (s : State) : (setOk v s).inputs = s.inputs := rfl
@[simp] theorem setOk_free (v : Bool) (s : State) : (setOk v s).free = s.free := rfl

/-! ## finishDecode -/

@[simp] theorem finishDecode_cfg (r : Bool → Result) (v : Bool) (s : State) : (finishDecode r v s).cfg = s.cfg := rfl
@[simp] theorem finishDecode_txbuf (r : Bool → Result) (v : Bool) (s : State) :
    (finishDecode r v s).txbuf = s.txbuf := rfl
@[simp] theorem finishDecode_rxbuf (r : Bool → Result) (v : Bool) (s : State) :
    (finishDecode r v s).rxbuf = s.rxbuf := rfl
@[simp] theorem finishDecode_phase (r : Bool → Result) (v : Bool) (s : State) :
    (finishDecode r v s).phase = .idle := rfl
@[simp] theorem finishDecode_cyc (r : Bool → Result) (v : Bool) (s : State) : (finishDecode r v s).cyc = 0 := rfl
@[simp] theorem finishDecode_pwResult (r : Bool → Result) (v : Bool) (s : State) :
    (finishDecode r v s).pwResult = s.pwResult := rfl
@[simp] theorem finishDecode_ok (r : Bool → Result) (v : Bool) (s : State) : (finishDecode r v s).ok = v := rfl
@[simp] theorem finishDecode_err (r : Bool → Result) (v : Bool) (s : State) : (finishDecode r v s).err = s.err := rfl
@[simp] theorem finishDecode_outCtl (r : Bool → Result) (v : Bool) (s : State) :
    (finishDecode r v s).outCtl = s.outCtl := rfl
@[simp] theorem finishDecode_outData (r : Bool → Result) (v : Bool) (s : State) :
    (finishDecode r v s).outData = s.outData := rfl
@[simp] theorem finishDecode_dirCtlOut (r : Bool → Result) (v : Bool) (s : State) :
    (finishDecode r v s).dirCtlOut = s.dirCtlOut := rfl
@[simp] theorem finishDecode_dirDataOut (r : Bool → Result) (v : Bool) (s : State) :
    (finishDecode r v s).dirDataOut = s.dirDataOut := rfl
@[simp] theorem finishDecode_dirCtlIn (r : Bool → Result) (v : Bool) (s : State) :
    (finishDecode r v s).dirCtlIn = s.dirCtlIn := rfl
@[simp] theorem finishDecode_dirDataIn (r : Bool → Result) (v : Bool) (s : State) :
    (finishDecode r v s).dirDataIn = s.dirDataIn := rfl
@[simp] theorem finishDecode_setupDone (r : Bool → Result) (v : Bool) (s : State) :
    (finishDecode r v s).setupDone = s.setupDone := rfl
@[simp] theorem finishDecode_dl (r : Bool → Result) (v : Bool) (s : State) : (finishDecode r v s).dl = s.dl := rfl
@[simp] theorem finishDecode_req (r : Bool → Result) (v : Bool) (s : State) : (finishDecode r v s).req = s.req := rfl
@[simp] theorem finishDecode_edgeCnt (r : Bool → Result) (v : Bool) (s : State) :
    (finishDecode r v s).edgeCnt = s.edgeCnt := rfl
@[simp] theorem finishDecode_baseCnt (r : Bool → Result) (v : Bool) (s : State) :
    (finishDecode r v s).baseCnt = s.baseCnt := rfl
@[simp] theorem finishDecode_edgePending (r : Bool → Result) (v : Bool) (s : State) :
    (finishDecode r v s).edgePending = s.edgePending := rfl
@[simp] theorem finishDecode_attached (r : Bool → Result) (v : Bool) (s : State) :
    (finishDecode r v s).attached = s.attached := rfl
@[simp] theorem finishDecode_now (r : Bool → Result) (v : Bool) (s : State) : (finishDecode r v s).now = s.now := rfl
@[simp] theorem finishDecode_lastRead (r : Bool → Result) (v : Bool) (s : State) :
    (finishDecode r v s).lastRead = s.lastRead := rfl
@[simp] theorem finishDecode_wCtlIn (r : Bool → Result) (v : Bool) (s : State) :
    (finishDecode r v s).wCtlIn = s.wCtlIn := rfl
@[simp] theorem finishDecode_wDataIn (r : Bool → Result) (v : Bool) (s : State) :
    (finishDecode r v s).wDataIn = s.wDataIn := rfl
@[simp] theorem finishDecode_args (r : Bool → Result) (v : Bool) (s : State) :
    (finishDecode r v s).args = s.args := rfl
@[simp] theorem finishDecode_outState (r : Bool → Result) (v : Bool) (s : State) :
    (finishDecode r v s).outState = s.outState := rfl
@[simp] theorem finishDecode_outProCfg (r : Bool → Result) (v : Bool) (s : State) :
    (finishDecode r v s).outProCfg = s.outProCfg := rfl
@[simp] theorem finishDecode_outStdCfg (r : Bool → Result) (v : Bool) (s : State) :
    (finishDecode r v s).outStdCfg = s.outStdCfg := rfl
@[simp] theorem finishDecode_cur (r : Bool → Result) (v : Bool) (s : State) : (finishDecode r v s).cur = none := rfl
@[simp] theorem finishDecode_sub (r : Bool → Result) (v : Bool) (s : State) : (finishDecode r v s).sub = .start := rfl
@[simp] theorem finishDecode_delayLeft (r : Bool → Result) (v : Bool) (s : State) :
    (finishDecode r v s).delayLeft = 0 := rfl
@[simp] theorem finishDecode_result (r : Bool → Result) (v : Bool) (s : State) :
    (finishDecode r v s).result = r v := rfl
@[simp] theorem finishDecode_turned (r : Bool → Result) (v : Bool) (s : State) :
    (finishDecode r v s).turned = s.turned := rfl
@[simp] theorem finishDecode_failure (r : Bool → Result) (v : Bool) (s : State) :
    (finishDecode r v s).failure = s.failure := rfl
@[simp] theorem finishDecode_calls (r : Bool → Result) (v : Bool) (s : State) :
    (finishDecode r v s).calls = s.calls := rfl
@[simp] theorem finishDecode_history (r : Bool → Result) (v : Bool) (s : State) :
    (finishDecode r v s).history = ⟨r v, .nothing⟩ :: s.history := rfl
@[simp] theorem finishDecode_inputs (r : Bool → Result) (v : Bool) (s : State) :
    (finishDecode r v s).inputs = s.inputs := rfl
@[simp] theorem finishDecode_free (r : Bool → Result) (v : Bool) (s : State) :
    (finishDecode r v s).free = s.free := rfl

/-! ## runTrigger -/

@[simp] theorem runTrigger_cfg (t : Trigger) (s : State) : (runTrigger t s).cfg = s.cfg := by cases t <;> rfl
@[simp] theorem runTrigger_txbuf (t : Trigger) (s : State) : (runTrigger t s).txbuf = s.txbuf := by cases t <;> rfl
@[simp] theorem runTrigger_rxbuf (t : Trigger) (s : State) : (runTrigger t s).rxbuf = s.rxbuf := by cases t <;> rfl
@[simp] theorem runTrigger_phase (t : Trigger) (s : State) : (runTrigger t s).phase = s.phase := by cases t <;> rfl
@[simp] theorem runTrigger_cyc (t : Trigger) (s : State) : (runTrigger t s).cyc = s.cyc := by cases t <;> rfl
@[simp] theorem runTrigger_pwResult (t : Trigger) (s : State) :
    (runTrigger t s).pwResult = s.pwResult := by cases t <;> rfl
@[simp] theorem runTrigger_ok (t : Trigger) (s : State) : (runTrigger t s).ok = s.ok := by cases t <;> rfl
@[simp] theorem runTrigger_err (t : Trigger) (s : State) : (runTrigger t s).err = s.err := by cases t <;> rfl
@[simp] theorem runTrigger_outCtl (t : Trigger) (s : State) :
    (runTrigger t s).outCtl = match t with | .none => s.outCtl | .toggleReq => !s.req := by cases t <;> rfl
@[simp] theorem runTrigger_outData (t : Trigger) (s : State) :
    (runTrigger t s).outData = s.outData := by cases t <;> rfl
@[simp] theorem runTrigger_dirCtlOut (t : Trigger) (s : State) :
    (runTrigger t s).dirCtlOut = s.dirCtlOut := by cases t <;> rfl
@[simp] theorem runTrigger_dirDataOut (t : Trigger) (s : State) :
    (runTrigger t s).dirDataOut = s.dirDataOut := by cases t <;> rfl
@[simp] theorem runTrigger_dirCtlIn (t : Trigger) (s : State) :
    (runTrigger t s).dirCtlIn = s.dirCtlIn := by cases t <;> rfl
@[simp] theorem runTrigger_dirDataIn (t : Trigger) (s : State) :
    (runTrigger t s).dirDataIn = s.dirDataIn := by cases t <;> rfl
@[simp] theorem runTrigger_setupDone (t : Trigger) (s : State) :
    (runTrigger t s).setupDone = s.setupDone := by cases t <;> rfl
@[simp] theorem runTrigger_dl (t : Trigger) (s : State) : (runTrigger t s).dl = s.dl := by cases t <;> rfl
@[simp] theorem runTrigger_req (t : Trigger) (s : State) :
    (runTrigger t s).req = match t with | .none => s.req | .toggleReq => !s.req := by cases t <;> rfl
@[simp] theorem runTrigger_edgeCnt (t : Trigger) (s : State) :
    (runTrigger t s).edgeCnt = s.edgeCnt := by cases t <;> rfl
@[simp] theorem runTrigger_baseCnt (t : Trigger) (s : State) :
    (runTrigger t s).baseCnt = s.baseCnt := by cases t <;> rfl
@[simp] theorem runTrigger_edgePending (t : Trigger) (s : State) :
    (runTrigger t s).edgePending = s.edgePending := by cases t <;> rfl
@[simp] theorem runTrigger_attached (t : Trigger) (s : State) :
    (runTrigger t s).attached = s.attached := by cases t <;> rfl
@[simp] theorem runTrigger_now (t : Trigger) (s : State) : (runTrigger t s).now = s.now := by cases t <;> rfl
@[simp] theorem runTrigger_lastRead (t : Trigger) (s : State) :
    (runTrigger t s).lastRead = s.lastRead := by cases t <;> rfl
@[simp] theorem runTrigger_wCtlIn (t : Trigger) (s : State) : (runTrigger t s).wCtlIn = s.wCtlIn := by cases t <;> rfl
@[simp] theorem runTrigger_wDataIn (t : Trigger) (s : State) :
    (runTrigger t s).wDataIn = s.wDataIn := by cases t <;> rfl
@[simp] theorem runTrigger_args (t : Trigger) (s : State) : (runTrigger t s).args = s.args := by cases t <;> rfl
@[simp] theorem runTrigger_outState (t : Trigger) (s : State) :
    (runTrigger t s).outState = s.outState := by cases t <;> rfl
@[simp] theorem runTrigger_outProCfg (t : Trigger) (s : State) :
    (runTrigger t s).outProCfg = s.outProCfg := by cases t <;> rfl
@[simp] theorem runTrigger_outStdCfg (t : Trigger) (s : State) :
    (runTrigger t s).outStdCfg = s.outStdCfg := by cases t <;> rfl
@[simp] theorem runTrigger_cur (t : Trigger) (s : State) : (runTrigger t s).cur = s.cur := by cases t <;> rfl
@[simp] theorem runTrigger_sub (t : Trigger) (s : State) : (runTrigger t s).sub = s.sub := by cases t <;> rfl
@[simp] theorem runTrigger_delayLeft (t : Trigger) (s : State) :
    (runTrigger t s).delayLeft = s.delayLeft := by cases t <;> rfl
@[simp] theorem runTrigger_result (t : Trigger) (s : State) : (runTrigger t s).result = s.result := by cases t <;> rfl
@[simp] theorem runTrigger_turned (t : Trigger) (s : State) : (runTrigger t s).turned = s.turned := by cases t <;> rfl
@[simp] theorem runTrigger_failure (t : Trigger) (s : State) :
    (runTrigger t s).failure = s.failure := by cases t <;> rfl
@[simp] theorem runTrigger_calls (t : Trigger) (s : State) :
    (runTrigger t s).calls =
      match t with | .none => s.calls | .toggleReq => .pinWrite .ctlOut (!s.req) :: s.calls :=
  by cases t <;> rfl
@[simp] theorem runTrigger_history (t : Trigger) (s : State) :
    (runTrigger t s).history = s.history := by cases t <;> rfl
@[simp] theorem runTrigger_inputs (t : Trigger) (s : State) : (runTrigger t s).inputs = s.inputs := by cases t <;> rfl
@[simp] theorem runTrigger_free (t : Trigger) (s : State) : (runTrigger t s).free = s.free := by cases t <;> rfl

/-! ## setupEnds -/

@[simp] theorem setupEnds_cfg (v : Variant) (s : State) : (setupEnds v s).cfg = s.cfg := rfl
@[simp] theorem setupEnds_txbuf (v : Variant) (s : State) : (setupEnds v s).txbuf = s.txbuf := rfl
@[simp] theorem setupEnds_rxbuf (v : Variant) (s : State) : (setupEnds v s).rxbuf = s.rxbuf := rfl
@[simp] theorem setupEnds_phase (v : Variant) (s : State) : (setupEnds v s).phase = .idle := rfl
@[simp] theorem setupEnds_cyc (v : Variant) (s : State) : (setupEnds v s).cyc = 0 := rfl
@[simp] theorem setupEnds_pwResult (v : Variant) (s : State) : (setupEnds v s).pwResult = s.pwResult := rfl
@[simp] theorem setupEnds_ok (v : Variant) (s : State) : (setupEnds v s).ok = s.ok := rfl
@[simp] theorem setupEnds_err (v : Variant) (s : State) : (setupEnds v s).err = s.err := rfl
@[simp] theorem setupEnds_outCtl (v : Variant) (s : State) : (setupEnds v s).outCtl = s.outCtl := rfl
@[simp] theorem setupEnds_outData (v : Variant) (s : State) : (setupEnds v s).outData = s.outData := rfl
@[simp] theorem setupEnds_dirCtlOut (v : Variant) (s : State) : (setupEnds v s).dirCtlOut = s.dirCtlOut := rfl
@[simp] theorem setupEnds_dirDataOut (v : Variant) (s : State) : (setupEnds v s).dirDataOut = s.dirDataOut := rfl
@[simp] theorem setupEnds_dirCtlIn (v : Variant) (s : State) : (setupEnds v s).dirCtlIn = s.dirCtlIn := rfl
@[simp] theorem setupEnds_dirDataIn (v : Variant) (s : State) : (setupEnds v s).dirDataIn = s.dirDataIn := rfl
@[simp] theorem setupEnds_setupDone (v : Variant) (s : State) : (setupEnds v s).setupDone = true := rfl
@[simp] theorem setupEnds_dl (v : Variant) (s : State) : (setupEnds v s).dl = s.dl := rfl
@[simp] theorem setupEnds_req (v : Variant) (s : State) :
    (setupEnds v s).req = match v with | .std => false | .pro => s.req := rfl
@[simp] theorem setupEnds_edgeCnt (v : Variant) (s : State) : (setupEnds v s).edgeCnt = s.edgeCnt := rfl
@[simp] theorem setupEnds_baseCnt (v : Variant) (s : State) : (setupEnds v s).baseCnt = s.baseCnt := rfl
@[simp] theorem setupEnds_edgePending (v : Variant) (s : State) : (setupEnds v s).edgePending = s.edgePending := rfl
@[simp] theorem setupEnds_attached (v : Variant) (s : State) : (setupEnds v s).attached = s.attached := rfl
@[simp] theorem setupEnds_now (v : Variant) (s : State) : (setupEnds v s).now = s.now := rfl
@[simp] theorem setupEnds_lastRead (v : Variant) (s : State) : (setupEnds v s).lastRead = s.lastRead := rfl
@[simp] theorem setupEnds_wCtlIn (v : Variant) (s : State) : (setupEnds v s).wCtlIn = s.wCtlIn := rfl
@[simp] theorem setupEnds_wDataIn (v : Variant) (s : State) : (setupEnds v s).wDataIn = s.wDataIn := rfl
@[simp] theorem setupEnds_args (v : Variant) (s : State) : (setupEnds v s).args = s.args := rfl
@[simp] theorem setupEnds_outState (v : Variant) (s : State) : (setupEnds v s).outState = s.outState := rfl
@[simp] theorem setupEnds_outProCfg (v : Variant) (s : State) : (setupEnds v s).outProCfg = s.outProCfg := rfl
@[simp] theorem setupEnds_outStdCfg (v : Variant) (s : State) : (setupEnds v s).outStdCfg = s.outStdCfg := rfl
@[simp] theorem setupEnds_cur (v : Variant) (s : State) : (setupEnds v s).cur = none := rfl
@[simp] theorem setupEnds_sub (v : Variant) (s : State) : (setupEnds v s).sub = .start := rfl
@[simp] theorem setupEnds_delayLeft (v : Variant) (s : State) : (setupEnds v s).delayLeft = 0 := rfl
@[simp] theorem setupEnds_result (v : Variant) (s : State) : (setupEnds v s).result = .nothing := rfl
@[simp] theorem setupEnds_turned (v : Variant) (s : State) : (setupEnds v s).turned = s.turned := rfl
@[simp] theorem setupEnds_failure (v : Variant) (s : State) : (setupEnds v s).failure = s.failure := rfl
@[simp] theorem setupEnds_calls (v : Variant) (s : State) : (setupEnds v s).calls = s.calls := rfl
@[simp] theorem setupEnds_history (v : Variant) (s : State) :
    (setupEnds v s).history = ⟨.nothing, .nothing⟩ :: s.history := rfl
@[simp] theorem setupEnds_inputs (v : Variant) (s : State) : (setupEnds v s).inputs = s.inputs := rfl
@[simp] theorem setupEnds_free (v : Variant) (s : State) : (setupEnds v s).free = s.free := rfl

/-! ## peerDrivesCtl -/

@[simp] theorem peerDrivesCtl_cfg (v : Bool) (s : State) : (peerDrivesCtl v s).cfg = s.cfg := rfl
@[simp] theorem peerDrivesCtl_txbuf (v : Bool) (s : State) : (peerDrivesCtl v s).txbuf = s.txbuf := rfl
@[simp] theorem peerDrivesCtl_rxbuf (v : Bool) (s : State) : (peerDrivesCtl v s).rxbuf = s.rxbuf := rfl
@[simp] theorem peerDrivesCtl_phase (v : Bool) (s : State) : (peerDrivesCtl v s).phase = s.phase := rfl
@[simp] theorem peerDrivesCtl_cyc (v : Bool) (s : State) : (peerDrivesCtl v s).cyc = s.cyc := rfl
@[simp] theorem peerDrivesCtl_pwResult (v : Bool) (s : State) : (peerDrivesCtl v s).pwResult = s.pwResult := rfl
@[simp] theorem peerDrivesCtl_ok (v : Bool) (s : State) : (peerDrivesCtl v s).ok = s.ok := rfl
@[simp] theorem peerDrivesCtl_err (v : Bool) (s : State) : (peerDrivesCtl v s).err = s.err := rfl
@[simp] theorem peerDrivesCtl_outCtl (v : Bool) (s : State) : (peerDrivesCtl v s).outCtl = s.outCtl := rfl
@[simp] theorem peerDrivesCtl_outData (v : Bool) (s : State) : (peerDrivesCtl v s).outData = s.outData := rfl
@[simp] theorem peerDrivesCtl_dirCtlOut (v : Bool) (s : State) : (peerDrivesCtl v s).dirCtlOut = s.dirCtlOut := rfl
@[simp] theorem peerDrivesCtl_dirDataOut (v : Bool) (s : State) : (peerDrivesCtl v s).dirDataOut = s.dirDataOut := rfl
@[simp] theorem peerDrivesCtl_dirCtlIn (v : Bool) (s : State) : (peerDrivesCtl v s).dirCtlIn = s.dirCtlIn := rfl
@[simp] theorem peerDrivesCtl_dirDataIn (v : Bool) (s : State) : (peerDrivesCtl v s).dirDataIn = s.dirDataIn := rfl
@[simp] theorem peerDrivesCtl_setupDone (v : Bool) (s : State) : (peerDrivesCtl v s).setupDone = s.setupDone := rfl
@[simp] theorem peerDrivesCtl_dl (v : Bool) (s : State) : (peerDrivesCtl v s).dl = s.dl := rfl
@[simp] theorem peerDrivesCtl_req (v : Bool) (s : State) : (peerDrivesCtl v s).req = s.req := rfl
@[simp] theorem peerDrivesCtl_edgeCnt (v : Bool) (s : State) : (peerDrivesCtl v s).edgeCnt = s.edgeCnt := rfl
@[simp] theorem peerDrivesCtl_baseCnt (v : Bool) (s : State) : (peerDrivesCtl v s).baseCnt = s.baseCnt := rfl
@[simp] theorem peerDrivesCtl_edgePending (v : Bool) (s : State) :
    (peerDrivesCtl v s).edgePending = if s.attached && s.wCtlIn && !v then s.edgePending + 1 else s.edgePending := rfl
@[simp] theorem peerDrivesCtl_attached (v : Bool) (s : State) : (peerDrivesCtl v s).attached = s.attached := rfl
@[simp] theorem peerDrivesCtl_now (v : Bool) (s : State) : (peerDrivesCtl v s).now = s.now := rfl
@[simp] theorem peerDrivesCtl_lastRead (v : Bool) (s : State) : (peerDrivesCtl v s).lastRead = s.lastRead := rfl
@[simp] theorem peerDrivesCtl_wCtlIn (v : Bool) (s : State) : (peerDrivesCtl v s).wCtlIn = v := rfl
@[simp] theorem peerDrivesCtl_wDataIn (v : Bool) (s : State) : (peerDrivesCtl v s).wDataIn = s.wDataIn := rfl
@[simp] theorem peerDrivesCtl_args (v : Bool) (s : State) : (peerDrivesCtl v s).args = s.args := rfl
@[simp] theorem peerDrivesCtl_outState (v : Bool) (s : State) : (peerDrivesCtl v s).outState = s.outState := rfl
@[simp] theorem peerDrivesCtl_outProCfg (v : Bool) (s : State) : (peerDrivesCtl v s).outProCfg = s.outProCfg := rfl
@[simp] theorem peerDrivesCtl_outStdCfg (v : Bool) (s : State) : (peerDrivesCtl v s).outStdCfg = s.outStdCfg := rfl
@[simp] theorem peerDrivesCtl_cur (v : Bool) (s : State) : (peerDrivesCtl v s).cur = s.cur := rfl
@[simp] theorem peerDrivesCtl_sub (v : Bool) (s : State) : (peerDrivesCtl v s).sub = s.sub := rfl
@[simp] theorem peerDrivesCtl_delayLeft (v : Bool) (s : State) : (peerDrivesCtl v s).delayLeft = s.delayLeft := rfl
@[simp] theorem peerDrivesCtl_result (v : Bool) (s : State) : (peerDrivesCtl v s).result = s.result := rfl
@[simp] theorem peerDrivesCtl_turned (v : Bool) (s : State) : (peerDrivesCtl v s).turned = s.turned := rfl
@[simp] theorem peerDrivesCtl_failure (v : Bool) (s : State) : (peerDrivesCtl v s).failure = s.failure := rfl
@[simp] theorem peerDrivesCtl_calls (v : Bool) (s : State) : (peerDrivesCtl v s).calls = s.calls := rfl
@[simp] theorem peerDrivesCtl_history (v : Bool) (s : State) : (peerDrivesCtl v s).history = s.history := rfl
@[simp] theorem peerDrivesCtl_inputs (v : Bool) (s : State) : (peerDrivesCtl v s).inputs = s.inputs := rfl
@[simp] theorem peerDrivesCtl_free (v : Bool) (s : State) : (peerDrivesCtl v s).free = s.free := rfl

/-! ## peerDrivesData -/

@[simp] theorem peerDrivesData_cfg (v : Bool) (s : State) : (peerDrivesData v s).cfg = s.cfg := rfl
@[simp] theorem peerDrivesData_txbuf (v : Bool) (s : State) : (peerDrivesData v s).txbuf = s.txbuf := rfl
@[simp] theorem peerDrivesData_rxbuf (v : Bool) (s : State) : (peerDrivesData v s).rxbuf = s.rxbuf := rfl
@[simp] theorem peerDrivesData_phase (v : Bool) (s : State) : (peerDrivesData v s).phase = s.phase := rfl
@[simp] theorem peerDrivesData_cyc (v : Bool) (s : State) : (peerDrivesData v s).cyc = s.cyc := rfl
@[simp] theorem peerDrivesData_pwResult (v : Bool) (s : State) : (peerDrivesData v s).pwResult = s.pwResult := rfl
@[simp] theorem peerDrivesData_ok (v : Bool) (s : State) : (peerDrivesData v s).ok = s.ok := rfl
@[simp] theorem peerDrivesData_err (v : Bool) (s : State) : (peerDrivesData v s).err = s.err := rfl
@[simp] theorem peerDrivesData_outCtl (v : Bool) (s : State) : (peerDrivesData v s).outCtl = s.outCtl := rfl
@[simp] theorem peerDrivesData_outData (v : Bool) (s : State) : (peerDrivesData v s).outData = s.outData := rfl
@[simp] theorem peerDrivesData_dirCtlOut (v : Bool) (s : State) : (peerDrivesData v s).dirCtlOut = s.dirCtlOut := rfl
@[simp] theorem peerDrivesData_dirDataOut (v : Bool) (s : State) :
    (peerDrivesData v s).dirDataOut = s.dirDataOut := rfl
@[simp] theorem peerDrivesData_dirCtlIn (v : Bool) (s : State) : (peerDrivesData v s).dirCtlIn = s.dirCtlIn := rfl
@[simp] theorem peerDrivesData_dirDataIn (v : Bool) (s : State) : (peerDrivesData v s).dirDataIn = s.dirDataIn := rfl
@[simp] theorem peerDrivesData_setupDone (v : Bool) (s : State) : (peerDrivesData v s).setupDone = s.setupDone := rfl
@[simp] theorem peerDrivesData_dl (v : Bool) (s : State) : (peerDrivesData v s).dl = s.dl := rfl
@[simp] theorem peerDrivesData_req (v : Bool) (s : State) : (peerDrivesData v s).req = s.req := rfl
@[simp] theorem peerDrivesData_edgeCnt (v : Bool) (s : State) : (peerDrivesData v s).edgeCnt = s.edgeCnt := rfl
@[simp] theorem peerDrivesData_baseCnt (v : Bool) (s : State) : (peerDrivesData v s).baseCnt = s.baseCnt := rfl
@[simp] theorem peerDrivesData_edgePending (v : Bool) (s : State) :
    (peerDrivesData v s).edgePending = s.edgePending := rfl
@[simp] theorem peerDrivesData_attached (v : Bool) (s : State) : (peerDrivesData v s).attached = s.attached := rfl
@[simp] theorem peerDrivesData_now (v : Bool) (s : State) : (peerDrivesData v s).now = s.now := rfl
@[simp] theorem peerDrivesData_lastRead (v : Bool) (s : State) : (peerDrivesData v s).lastRead = s.lastRead := rfl
@[simp] theorem peerDrivesData_wCtlIn (v : Bool) (s : State) : (peerDrivesData v s).wCtlIn = s.wCtlIn := rfl
@[simp] theorem peerDrivesData_wDataIn (v : Bool) (s : State) : (peerDrivesData v s).wDataIn = v := rfl
@[simp] theorem peerDrivesData_args (v : Bool) (s : State) : (peerDrivesData v s).args = s.args := rfl
@[simp] theorem peerDrivesData_outState (v : Bool) (s : State) : (peerDrivesData v s).outState = s.outState := rfl
@[simp] theorem peerDrivesData_outProCfg (v : Bool) (s : State) : (peerDrivesData v s).outProCfg = s.outProCfg := rfl
@[simp] theorem peerDrivesData_outStdCfg (v : Bool) (s : State) : (peerDrivesData v s).outStdCfg = s.outStdCfg := rfl
@[simp] theorem peerDrivesData_cur (v : Bool) (s : State) : (peerDrivesData v s).cur = s.cur := rfl
@[simp] theorem peerDrivesData_sub (v : Bool) (s : State) : (peerDrivesData v s).sub = s.sub := rfl
@[simp] theorem peerDrivesData_delayLeft (v : Bool) (s : State) : (peerDrivesData v s).delayLeft = s.delayLeft := rfl
@[simp] theorem peerDrivesData_result (v : Bool) (s : State) : (peerDrivesData v s).result = s.result := rfl
@[simp] theorem peerDrivesData_turned (v : Bool) (s : State) : (peerDrivesData v s).turned = s.turned := rfl
@[simp] theorem peerDrivesData_failure (v : Bool) (s : State) : (peerDrivesData v s).failure = s.failure := rfl
@[simp] theorem peerDrivesData_calls (v : Bool) (s : State) : (peerDrivesData v s).calls = s.calls := rfl
@[simp] theorem peerDrivesData_history (v : Bool) (s : State) : (peerDrivesData v s).history = s.history := rfl
@[simp] theorem peerDrivesData_inputs (v : Bool) (s : State) : (peerDrivesData v s).inputs = s.inputs := rfl
@[simp] theorem peerDrivesData_free (v : Bool) (s : State) : (peerDrivesData v s).free = s.free := rfl

/-! ## clockAdvances -/

@[simp] theorem clockAdvances_cfg (us : Word) (s : State) : (clockAdvances us s).cfg = s.cfg := rfl
@[simp] theorem clockAdvances_txbuf (us : Word) (s : State) : (clockAdvances us s).txbuf = s.txbuf := rfl
@[simp] theorem clockAdvances_rxbuf (us : Word) (s : State) : (clockAdvances us s).rxbuf = s.rxbuf := rfl
@[simp] theorem clockAdvances_phase (us : Word) (s : State) : (clockAdvances us s).phase = s.phase := rfl
@[simp] theorem clockAdvances_cyc (us : Word) (s : State) : (clockAdvances us s).cyc = s.cyc := rfl
@[simp] theorem clockAdvances_pwResult (us : Word) (s : State) : (clockAdvances us s).pwResult = s.pwResult := rfl
@[simp] theorem clockAdvances_ok (us : Word) (s : State) : (clockAdvances us s).ok = s.ok := rfl
@[simp] theorem clockAdvances_err (us : Word) (s : State) : (clockAdvances us s).err = s.err := rfl
@[simp] theorem clockAdvances_outCtl (us : Word) (s : State) : (clockAdvances us s).outCtl = s.outCtl := rfl
@[simp] theorem clockAdvances_outData (us : Word) (s : State) : (clockAdvances us s).outData = s.outData := rfl
@[simp] theorem clockAdvances_dirCtlOut (us : Word) (s : State) : (clockAdvances us s).dirCtlOut = s.dirCtlOut := rfl
@[simp] theorem clockAdvances_dirDataOut (us : Word) (s : State) :
    (clockAdvances us s).dirDataOut = s.dirDataOut := rfl
@[simp] theorem clockAdvances_dirCtlIn (us : Word) (s : State) : (clockAdvances us s).dirCtlIn = s.dirCtlIn := rfl
@[simp] theorem clockAdvances_dirDataIn (us : Word) (s : State) : (clockAdvances us s).dirDataIn = s.dirDataIn := rfl
@[simp] theorem clockAdvances_setupDone (us : Word) (s : State) : (clockAdvances us s).setupDone = s.setupDone := rfl
@[simp] theorem clockAdvances_dl (us : Word) (s : State) : (clockAdvances us s).dl = s.dl := rfl
@[simp] theorem clockAdvances_req (us : Word) (s : State) : (clockAdvances us s).req = s.req := rfl
@[simp] theorem clockAdvances_edgeCnt (us : Word) (s : State) : (clockAdvances us s).edgeCnt = s.edgeCnt := rfl
@[simp] theorem clockAdvances_baseCnt (us : Word) (s : State) : (clockAdvances us s).baseCnt = s.baseCnt := rfl
@[simp] theorem clockAdvances_edgePending (us : Word) (s : State) :
    (clockAdvances us s).edgePending = s.edgePending := rfl
@[simp] theorem clockAdvances_attached (us : Word) (s : State) : (clockAdvances us s).attached = s.attached := rfl
@[simp] theorem clockAdvances_now (us : Word) (s : State) :
    (clockAdvances us s).now = s.now + BitVec.ofNat 32 (min us.toNat (clockRoom s)) := rfl
@[simp] theorem clockAdvances_lastRead (us : Word) (s : State) : (clockAdvances us s).lastRead = s.lastRead := rfl
@[simp] theorem clockAdvances_wCtlIn (us : Word) (s : State) : (clockAdvances us s).wCtlIn = s.wCtlIn := rfl
@[simp] theorem clockAdvances_wDataIn (us : Word) (s : State) : (clockAdvances us s).wDataIn = s.wDataIn := rfl
@[simp] theorem clockAdvances_args (us : Word) (s : State) : (clockAdvances us s).args = s.args := rfl
@[simp] theorem clockAdvances_outState (us : Word) (s : State) : (clockAdvances us s).outState = s.outState := rfl
@[simp] theorem clockAdvances_outProCfg (us : Word) (s : State) : (clockAdvances us s).outProCfg = s.outProCfg := rfl
@[simp] theorem clockAdvances_outStdCfg (us : Word) (s : State) : (clockAdvances us s).outStdCfg = s.outStdCfg := rfl
@[simp] theorem clockAdvances_cur (us : Word) (s : State) : (clockAdvances us s).cur = s.cur := rfl
@[simp] theorem clockAdvances_sub (us : Word) (s : State) : (clockAdvances us s).sub = s.sub := rfl
@[simp] theorem clockAdvances_delayLeft (us : Word) (s : State) :
    (clockAdvances us s).delayLeft = s.delayLeft - us.toNat := rfl
@[simp] theorem clockAdvances_result (us : Word) (s : State) : (clockAdvances us s).result = s.result := rfl
@[simp] theorem clockAdvances_turned (us : Word) (s : State) : (clockAdvances us s).turned = s.turned := rfl
@[simp] theorem clockAdvances_failure (us : Word) (s : State) : (clockAdvances us s).failure = s.failure := rfl
@[simp] theorem clockAdvances_calls (us : Word) (s : State) : (clockAdvances us s).calls = s.calls := rfl
@[simp] theorem clockAdvances_history (us : Word) (s : State) : (clockAdvances us s).history = s.history := rfl
@[simp] theorem clockAdvances_inputs (us : Word) (s : State) : (clockAdvances us s).inputs = s.inputs := rfl
@[simp] theorem clockAdvances_free (us : Word) (s : State) : (clockAdvances us s).free = s.free := rfl

/-! ## hostSets -/

@[simp] theorem hostSets_cfg (a : Args) (s : State) : (hostSets a s).cfg = s.cfg := rfl
@[simp] theorem hostSets_txbuf (a : Args) (s : State) : (hostSets a s).txbuf = s.txbuf := rfl
@[simp] theorem hostSets_rxbuf (a : Args) (s : State) : (hostSets a s).rxbuf = s.rxbuf := rfl
@[simp] theorem hostSets_phase (a : Args) (s : State) : (hostSets a s).phase = s.phase := rfl
@[simp] theorem hostSets_cyc (a : Args) (s : State) : (hostSets a s).cyc = s.cyc := rfl
@[simp] theorem hostSets_pwResult (a : Args) (s : State) : (hostSets a s).pwResult = s.pwResult := rfl
@[simp] theorem hostSets_ok (a : Args) (s : State) : (hostSets a s).ok = s.ok := rfl
@[simp] theorem hostSets_err (a : Args) (s : State) : (hostSets a s).err = s.err := rfl
@[simp] theorem hostSets_outCtl (a : Args) (s : State) : (hostSets a s).outCtl = s.outCtl := rfl
@[simp] theorem hostSets_outData (a : Args) (s : State) : (hostSets a s).outData = s.outData := rfl
@[simp] theorem hostSets_dirCtlOut (a : Args) (s : State) : (hostSets a s).dirCtlOut = s.dirCtlOut := rfl
@[simp] theorem hostSets_dirDataOut (a : Args) (s : State) : (hostSets a s).dirDataOut = s.dirDataOut := rfl
@[simp] theorem hostSets_dirCtlIn (a : Args) (s : State) : (hostSets a s).dirCtlIn = s.dirCtlIn := rfl
@[simp] theorem hostSets_dirDataIn (a : Args) (s : State) : (hostSets a s).dirDataIn = s.dirDataIn := rfl
@[simp] theorem hostSets_setupDone (a : Args) (s : State) : (hostSets a s).setupDone = s.setupDone := rfl
@[simp] theorem hostSets_dl (a : Args) (s : State) : (hostSets a s).dl = s.dl := rfl
@[simp] theorem hostSets_req (a : Args) (s : State) : (hostSets a s).req = s.req := rfl
@[simp] theorem hostSets_edgeCnt (a : Args) (s : State) : (hostSets a s).edgeCnt = s.edgeCnt := rfl
@[simp] theorem hostSets_baseCnt (a : Args) (s : State) : (hostSets a s).baseCnt = s.baseCnt := rfl
@[simp] theorem hostSets_edgePending (a : Args) (s : State) : (hostSets a s).edgePending = s.edgePending := rfl
@[simp] theorem hostSets_attached (a : Args) (s : State) : (hostSets a s).attached = s.attached := rfl
@[simp] theorem hostSets_now (a : Args) (s : State) : (hostSets a s).now = s.now := rfl
@[simp] theorem hostSets_lastRead (a : Args) (s : State) : (hostSets a s).lastRead = s.lastRead := rfl
@[simp] theorem hostSets_wCtlIn (a : Args) (s : State) : (hostSets a s).wCtlIn = s.wCtlIn := rfl
@[simp] theorem hostSets_wDataIn (a : Args) (s : State) : (hostSets a s).wDataIn = s.wDataIn := rfl
@[simp] theorem hostSets_args (a : Args) (s : State) : (hostSets a s).args = a := rfl
@[simp] theorem hostSets_outState (a : Args) (s : State) : (hostSets a s).outState = s.outState := rfl
@[simp] theorem hostSets_outProCfg (a : Args) (s : State) : (hostSets a s).outProCfg = s.outProCfg := rfl
@[simp] theorem hostSets_outStdCfg (a : Args) (s : State) : (hostSets a s).outStdCfg = s.outStdCfg := rfl
@[simp] theorem hostSets_cur (a : Args) (s : State) : (hostSets a s).cur = s.cur := rfl
@[simp] theorem hostSets_sub (a : Args) (s : State) : (hostSets a s).sub = s.sub := rfl
@[simp] theorem hostSets_delayLeft (a : Args) (s : State) : (hostSets a s).delayLeft = s.delayLeft := rfl
@[simp] theorem hostSets_result (a : Args) (s : State) : (hostSets a s).result = s.result := rfl
@[simp] theorem hostSets_turned (a : Args) (s : State) : (hostSets a s).turned = s.turned := rfl
@[simp] theorem hostSets_failure (a : Args) (s : State) : (hostSets a s).failure = s.failure := rfl
@[simp] theorem hostSets_calls (a : Args) (s : State) : (hostSets a s).calls = s.calls := rfl
@[simp] theorem hostSets_history (a : Args) (s : State) : (hostSets a s).history = s.history := rfl
@[simp] theorem hostSets_inputs (a : Args) (s : State) : (hostSets a s).inputs = s.inputs := rfl
@[simp] theorem hostSets_free (a : Args) (s : State) : (hostSets a s).free = s.free := rfl

/-! ## newInstance -/

@[simp] theorem newInstance_cfg (c : Config) (s : State) : (newInstance c s).cfg = c := rfl
@[simp] theorem newInstance_txbuf (c : Config) (s : State) :
    (newInstance c s).txbuf = (State.construct c).txbuf := rfl
@[simp] theorem newInstance_rxbuf (c : Config) (s : State) :
    (newInstance c s).rxbuf = (State.construct c).rxbuf := rfl
@[simp] theorem newInstance_phase (c : Config) (s : State) : (newInstance c s).phase = .idle := rfl
@[simp] theorem newInstance_cyc (c : Config) (s : State) : (newInstance c s).cyc = 0 := rfl
@[simp] theorem newInstance_pwResult (c : Config) (s : State) : (newInstance c s).pwResult = .finished := rfl
@[simp] theorem newInstance_ok (c : Config) (s : State) : (newInstance c s).ok = false := rfl
@[simp] theorem newInstance_err (c : Config) (s : State) : (newInstance c s).err = 0 := rfl
@[simp] theorem newInstance_outCtl (c : Config) (s : State) : (newInstance c s).outCtl = s.outCtl := rfl
@[simp] theorem newInstance_outData (c : Config) (s : State) : (newInstance c s).outData = s.outData := rfl
@[simp] theorem newInstance_dirCtlOut (c : Config) (s : State) : (newInstance c s).dirCtlOut = s.dirCtlOut := rfl
@[simp] theorem newInstance_dirDataOut (c : Config) (s : State) : (newInstance c s).dirDataOut = s.dirDataOut := rfl
@[simp] theorem newInstance_dirCtlIn (c : Config) (s : State) : (newInstance c s).dirCtlIn = s.dirCtlIn := rfl
@[simp] theorem newInstance_dirDataIn (c : Config) (s : State) : (newInstance c s).dirDataIn = s.dirDataIn := rfl
@[simp] theorem newInstance_setupDone (c : Config) (s : State) : (newInstance c s).setupDone = false := rfl
@[simp] theorem newInstance_dl (c : Config) (s : State) : (newInstance c s).dl = 0 := rfl
@[simp] theorem newInstance_req (c : Config) (s : State) : (newInstance c s).req = false := rfl
@[simp] theorem newInstance_edgeCnt (c : Config) (s : State) : (newInstance c s).edgeCnt = 0 := rfl
@[simp] theorem newInstance_baseCnt (c : Config) (s : State) : (newInstance c s).baseCnt = 0 := rfl
@[simp] theorem newInstance_edgePending (c : Config) (s : State) : (newInstance c s).edgePending = 0 := rfl
@[simp] theorem newInstance_attached (c : Config) (s : State) : (newInstance c s).attached = false := rfl
@[simp] theorem newInstance_now (c : Config) (s : State) : (newInstance c s).now = s.now := rfl
@[simp] theorem newInstance_lastRead (c : Config) (s : State) : (newInstance c s).lastRead = s.lastRead := rfl
@[simp] theorem newInstance_wCtlIn (c : Config) (s : State) : (newInstance c s).wCtlIn = s.wCtlIn := rfl
@[simp] theorem newInstance_wDataIn (c : Config) (s : State) : (newInstance c s).wDataIn = s.wDataIn := rfl
@[simp] theorem newInstance_args (c : Config) (s : State) : (newInstance c s).args = s.args := rfl
@[simp] theorem newInstance_outState (c : Config) (s : State) : (newInstance c s).outState = s.outState := rfl
@[simp] theorem newInstance_outProCfg (c : Config) (s : State) : (newInstance c s).outProCfg = s.outProCfg := rfl
@[simp] theorem newInstance_outStdCfg (c : Config) (s : State) : (newInstance c s).outStdCfg = s.outStdCfg := rfl
@[simp] theorem newInstance_cur (c : Config) (s : State) : (newInstance c s).cur = none := rfl
@[simp] theorem newInstance_sub (c : Config) (s : State) : (newInstance c s).sub = .start := rfl
@[simp] theorem newInstance_delayLeft (c : Config) (s : State) : (newInstance c s).delayLeft = 0 := rfl
@[simp] theorem newInstance_result (c : Config) (s : State) : (newInstance c s).result = .nothing := rfl
@[simp] theorem newInstance_turned (c : Config) (s : State) : (newInstance c s).turned = none := rfl
@[simp] theorem newInstance_failure (c : Config) (s : State) : (newInstance c s).failure = none := rfl
@[simp] theorem newInstance_calls (c : Config) (s : State) : (newInstance c s).calls = [] := rfl
@[simp] theorem newInstance_history (c : Config) (s : State) : (newInstance c s).history = s.history := rfl
@[simp] theorem newInstance_inputs (c : Config) (s : State) : (newInstance c s).inputs = s.inputs := rfl
@[simp] theorem newInstance_free (c : Config) (s : State) : (newInstance c s).free = s.free := rfl

/-! ## takeEvent -/

@[simp] theorem takeEvent_cfg (s : State) : (takeEvent s).cfg = s.cfg := by unfold takeEvent; split <;> simp_all
@[simp] theorem takeEvent_txbuf (s : State) : (takeEvent s).txbuf = s.txbuf := by unfold takeEvent; split <;> simp_all
@[simp] theorem takeEvent_rxbuf (s : State) : (takeEvent s).rxbuf = s.rxbuf := by unfold takeEvent; split <;> simp_all
@[simp] theorem takeEvent_phase (s : State) : (takeEvent s).phase = s.phase := by unfold takeEvent; split <;> simp_all
@[simp] theorem takeEvent_cyc (s : State) : (takeEvent s).cyc = s.cyc := by unfold takeEvent; split <;> simp_all
@[simp] theorem takeEvent_pwResult (s : State) :
    (takeEvent s).pwResult = s.pwResult := by unfold takeEvent; split <;> simp_all
@[simp] theorem takeEvent_ok (s : State) : (takeEvent s).ok = s.ok := by unfold takeEvent; split <;> simp_all
@[simp] theorem takeEvent_err (s : State) : (takeEvent s).err = s.err := by unfold takeEvent; split <;> simp_all
@[simp] theorem takeEvent_outCtl (s : State) :
    (takeEvent s).outCtl = s.outCtl := by unfold takeEvent; split <;> simp_all
@[simp] theorem takeEvent_outData (s : State) :
    (takeEvent s).outData = s.outData := by unfold takeEvent; split <;> simp_all
@[simp] theorem takeEvent_dirCtlOut (s : State) :
    (takeEvent s).dirCtlOut = s.dirCtlOut := by unfold takeEvent; split <;> simp_all
@[simp] theorem takeEvent_dirDataOut (s : State) :
    (takeEvent s).dirDataOut = s.dirDataOut := by unfold takeEvent; split <;> simp_all
@[simp] theorem takeEvent_dirCtlIn (s : State) :
    (takeEvent s).dirCtlIn = s.dirCtlIn := by unfold takeEvent; split <;> simp_all
@[simp] theorem takeEvent_dirDataIn (s : State) :
    (takeEvent s).dirDataIn = s.dirDataIn := by unfold takeEvent; split <;> simp_all
@[simp] theorem takeEvent_setupDone (s : State) :
    (takeEvent s).setupDone = s.setupDone := by unfold takeEvent; split <;> simp_all
@[simp] theorem takeEvent_dl (s : State) : (takeEvent s).dl = s.dl := by unfold takeEvent; split <;> simp_all
@[simp] theorem takeEvent_req (s : State) : (takeEvent s).req = s.req := by unfold takeEvent; split <;> simp_all
@[simp] theorem takeEvent_edgeCnt (s : State) :
    (takeEvent s).edgeCnt = s.edgeCnt := by unfold takeEvent; split <;> simp_all
@[simp] theorem takeEvent_baseCnt (s : State) :
    (takeEvent s).baseCnt = s.baseCnt := by unfold takeEvent; split <;> simp_all
@[simp] theorem takeEvent_edgePending (s : State) :
    (takeEvent s).edgePending = s.edgePending := by unfold takeEvent; split <;> simp_all
@[simp] theorem takeEvent_attached (s : State) :
    (takeEvent s).attached = s.attached := by unfold takeEvent; split <;> simp_all
@[simp] theorem takeEvent_now (s : State) : (takeEvent s).now = s.now := by unfold takeEvent; split <;> simp_all
@[simp] theorem takeEvent_lastRead (s : State) :
    (takeEvent s).lastRead = s.lastRead := by unfold takeEvent; split <;> simp_all
@[simp] theorem takeEvent_wCtlIn (s : State) :
    (takeEvent s).wCtlIn = s.wCtlIn := by unfold takeEvent; split <;> simp_all
@[simp] theorem takeEvent_wDataIn (s : State) :
    (takeEvent s).wDataIn = s.wDataIn := by unfold takeEvent; split <;> simp_all
@[simp] theorem takeEvent_args (s : State) : (takeEvent s).args = s.args := by unfold takeEvent; split <;> simp_all
@[simp] theorem takeEvent_outState (s : State) :
    (takeEvent s).outState = s.outState := by unfold takeEvent; split <;> simp_all
@[simp] theorem takeEvent_outProCfg (s : State) :
    (takeEvent s).outProCfg = s.outProCfg := by unfold takeEvent; split <;> simp_all
@[simp] theorem takeEvent_outStdCfg (s : State) :
    (takeEvent s).outStdCfg = s.outStdCfg := by unfold takeEvent; split <;> simp_all
@[simp] theorem takeEvent_cur (s : State) : (takeEvent s).cur = s.cur := by unfold takeEvent; split <;> simp_all
@[simp] theorem takeEvent_sub (s : State) : (takeEvent s).sub = s.sub := by unfold takeEvent; split <;> simp_all
@[simp] theorem takeEvent_delayLeft (s : State) :
    (takeEvent s).delayLeft = s.delayLeft := by unfold takeEvent; split <;> simp_all
@[simp] theorem takeEvent_result (s : State) :
    (takeEvent s).result = s.result := by unfold takeEvent; split <;> simp_all
@[simp] theorem takeEvent_turned (s : State) :
    (takeEvent s).turned = s.turned := by unfold takeEvent; split <;> simp_all
@[simp] theorem takeEvent_failure (s : State) :
    (takeEvent s).failure = s.failure := by unfold takeEvent; split <;> simp_all
@[simp] theorem takeEvent_calls (s : State) : (takeEvent s).calls = s.calls := by unfold takeEvent; split <;> simp_all
@[simp] theorem takeEvent_history (s : State) :
    (takeEvent s).history = s.history := by unfold takeEvent; split <;> simp_all
@[simp] theorem takeEvent_inputs (s : State) :
    (takeEvent s).inputs = s.inputs.tail := by unfold takeEvent; split <;> simp_all
@[simp] theorem takeEvent_free (s : State) :
    (takeEvent s).free =
      match s.inputs with | _ :: _ => s.free | [] => s.free + 1 :=
  by unfold takeEvent; split <;> simp_all

/-! ## Readings that an update leaves alone -/

@[simp] theorem wireLevel_ctlIn (s : State) : wireLevel .ctlIn s = s.wCtlIn := rfl
@[simp] theorem wireLevel_dataIn (s : State) : wireLevel .dataIn s = s.wDataIn := rfl

end Sys2Proof.Machine
end

