-- ==== Sys2Proof/Laws/Buffer.lean ====
section
/-! SUPPORT. What the BitBuffer accesses do, each said once, and the form of rule R110 kept by every one of them (this
machine has no other memory: spec/20_memory.md R50, R58). -/

namespace Sys2Proof.Machine

/-! ## Capacity and byte count -/

@[simp] theorem zeros_N (n : Nat) : (zeros n).N = n := rfl
@[simp] theorem zeros_length (n : Nat) : (zeros n).bytes.length = byteCount n := by simp [zeros]
@[simp] theorem rawPutByte_N (b : BitBuffer) (k : Nat) (v : Byte) : (rawPutByte b k v).N = b.N := rfl
@[simp] theorem rawPutByte_length (b : BitBuffer) (k : Nat) (v : Byte) :
    (rawPutByte b k v).bytes.length = b.bytes.length := by simp [rawPutByte]
@[simp] theorem rawPutBit_N (b : BitBuffer) (i : Nat) (v : Bool) : (rawPutBit b i v).N = b.N := rfl
@[simp] theorem rawPutBit_length (b : BitBuffer) (i : Nat) (v : Bool) :
    (rawPutBit b i v).bytes.length = b.bytes.length := by simp [rawPutBit]

@[simp] theorem rawPutField_N (b : BitBuffer) (s w v : Nat) : (rawPutField b s w v).N = b.N := by
  induction w with
  | zero => rfl
  | succ w ih => simp [rawPutField, ih]

@[simp] theorem rawPutField_length (b : BitBuffer) (s w v : Nat) :
    (rawPutField b s w v).bytes.length = b.bytes.length := by
  induction w with
  | zero => rfl
  | succ w ih => simp [rawPutField, ih]

/-! ## The form of rule R110 -/

theorem BitBuffer.wf_iff (b : BitBuffer) : b.wf = true ↔ 0 < b.N ∧ b.bytes.length = byteCount b.N := by
  simp [BitBuffer.wf]

theorem zeros_wf {n : Nat} (h : 0 < n) : (zeros n).wf = true := by simp [BitBuffer.wf_iff, h]

@[simp] theorem rawPutByte_wf (b : BitBuffer) (k : Nat) (v : Byte) : (rawPutByte b k v).wf = b.wf := by
  rw [Bool.eq_iff_iff, BitBuffer.wf_iff, BitBuffer.wf_iff]; simp

@[simp] theorem rawPutBit_wf (b : BitBuffer) (i : Nat) (v : Bool) : (rawPutBit b i v).wf = b.wf := by
  rw [Bool.eq_iff_iff, BitBuffer.wf_iff, BitBuffer.wf_iff]; simp

@[simp] theorem rawPutField_wf (b : BitBuffer) (s w v : Nat) : (rawPutField b s w v).wf = b.wf := by
  rw [Bool.eq_iff_iff, BitBuffer.wf_iff, BitBuffer.wf_iff]; simp

theorem setBit_wf {b b' : BitBuffer} {i : Int} {v : Bool} (h : setBit b i v = .ok b') : b'.wf = b.wf ∧ b'.N = b.N := by
  unfold setBit at h
  split at h <;> cases h
  exact ⟨by simp, rfl⟩

theorem setField_wf {b b' : BitBuffer} {s w : Int} {v : Nat} (h : setField b s w v = .ok b') :
    b'.wf = b.wf ∧ b'.N = b.N := by
  unfold setField at h
  split at h <;> cases h
  exact ⟨by simp, by simp⟩

theorem setByte_wf {b b' : BitBuffer} {k : Int} {v : Byte} (h : setByte b k v = .ok b') :
    b'.wf = b.wf ∧ b'.N = b.N := by
  unfold setByte at h
  split at h <;> cases h
  exact ⟨by simp, by simp⟩

@[simp] theorem bufferOfWord_N (n w : Nat) : (bufferOfWord n w).N = n := by simp [bufferOfWord]
theorem bufferOfWord_wf {n : Nat} (h : 0 < n) (w : Nat) : (bufferOfWord n w).wf = true := by
  simp [bufferOfWord, zeros_wf h]

@[simp] theorem encProState_N (r : JoystickState) : (encProState r).N = 56 := by simp [encProState]
@[simp] theorem encProState_wf (r : JoystickState) : (encProState r).wf = true := by
  simp [encProState, zeros_wf]
@[simp] theorem encProCfg_N (l : LedCode) (r : ProConfig) : (encProCfg l r).N = 19 := by simp [encProCfg]
@[simp] theorem encProCfg_wf (l : LedCode) (r : ProConfig) : (encProCfg l r).wf = true := by
  simp [encProCfg, zeros_wf]
@[simp] theorem encStdState_N (r : JoystickState) : (encStdState r).N = 64 := by simp [encStdState, encStdPayload]
@[simp] theorem encStdState_wf (r : JoystickState) : (encStdState r).wf = true := by
  simp [encStdState, encStdPayload, zeros_wf]
@[simp] theorem encStdCfg_N (r : StdConfig) : (encStdCfg r).N = 8 := by simp [encStdCfg]
@[simp] theorem encStdCfg_wf (r : StdConfig) : (encStdCfg r).wf = true := by simp [encStdCfg, zeros_wf]

theorem reset_buffers_wf : State.reset.txbuf.wf = true ∧ State.reset.rxbuf.wf = true := by decide

/-! ## Reading after writing -/

theorem rawByte_zeros (n k : Nat) : rawByte (zeros n) k = 0 := by
  simp [rawByte, zeros, List.getD_eq_getElem?_getD, List.getElem?_replicate]
  split <;> rfl

theorem rawBit_zeros (n i : Nat) : rawBit (zeros n) i = false := by simp [rawBit, rawByte_zeros]

theorem rawByte_rawPutByte (b : BitBuffer) (k j : Nat) (v : Byte) (h : k < b.bytes.length) :
    rawByte (rawPutByte b k v) j = if j = k then v else rawByte b j := by
  by_cases e : j = k
  · subst e; simp [rawByte, rawPutByte, List.getD_eq_getElem?_getD, h]
  · have e' : ¬ k = j := fun h => e h.symm
    simp [rawByte, rawPutByte, List.getD_eq_getElem?_getD, e, e']

theorem getLsbD_putBitInByte (x : Byte) (v : Bool) :
    ∀ j < 8, ∀ k < 8, (putBitInByte x j v).getLsbD k = if k = j then v else x.getLsbD k := by
  intro j hj k hk
  by_cases e : k = j
  · subst e
    cases v <;> simp [putBitInByte, hk]
  · have e' : ¬ k = j := e
    by_cases hlt : k < j
    · cases v <;> simp [putBitInByte, hk, hlt, e]
    · have : ¬ k - j = 0 := by omega
      cases v <;> simp [putBitInByte, hk, hlt, e, this]

theorem rawBit_rawPutBit (b : BitBuffer) (i j : Nat) (v : Bool) (h : i / 8 < b.bytes.length) :
    rawBit (rawPutBit b i v) j = if j = i then v else rawBit b j := by
  unfold rawBit rawPutBit
  rw [rawByte_rawPutByte _ _ _ _ h]
  by_cases e : j / 8 = i / 8
  · rw [if_pos e, getLsbD_putBitInByte _ _ _ (Nat.mod_lt _ (by decide)) _ (Nat.mod_lt _ (by decide))]
    by_cases m : j = i
    · simp [m]
    · have : ¬ j % 8 = i % 8 := by omega
      rw [if_neg this, if_neg m, e]
  · have : ¬ j = i := fun h => e (by rw [h])
    rw [if_neg e, if_neg this]

theorem rawBit_rawPutField (b : BitBuffer) (s w v j : Nat) (h : s + w ≤ 8 * b.bytes.length) :
    rawBit (rawPutField b s w v) j = if s ≤ j ∧ j < s + w then v.testBit (j - s) else rawBit b j := by
  induction w with
  | zero => rw [if_neg (by omega)]; rfl
  | succ w ih =>
    rw [rawPutField, rawBit_rawPutBit _ _ _ _ (by simp only [rawPutField_length]; omega), ih (by omega)]
    by_cases e : j = s + w
    · rw [if_pos e, if_pos (by omega)]; congr 1; omega
    · rw [if_neg e]
      by_cases m : s ≤ j ∧ j < s + w
      · rw [if_pos m, if_pos (by omega)]
      · rw [if_neg m, if_neg (by omega)]

theorem rawField_lt (b : BitBuffer) (s w : Nat) : rawField b s w < 2 ^ w := by
  induction w with
  | zero => simp [rawField]
  | succ w ih => rw [rawField, Nat.pow_succ]; split <;> omega

theorem testBit_rawField (b : BitBuffer) (s w j : Nat) :
    (rawField b s w).testBit j = (decide (j < w) && rawBit b (s + j)) := by
  induction w with
  | zero => simp [rawField]
  | succ w ih =>
    have hlt := rawField_lt b s w
    have split : rawField b s (w + 1) = 2 ^ w * (if rawBit b (s + w) then 1 else 0) ||| rawField b s w := by
      rw [← Nat.two_pow_add_eq_or_of_lt hlt, rawField]
      split <;> omega
    rw [split, Nat.testBit_or, ih, Nat.testBit_two_pow_mul]
    by_cases e : j = w
    · subst e; cases rawBit b (s + j) <;> simp
    · by_cases m : j < w
      · simp [m, Nat.lt_succ_of_lt m, Nat.not_le.mpr m]
      · have : ¬ j < w + 1 := by omega
        have hz : Nat.testBit 1 (j - w) = false := by
          rw [← Nat.pow_zero 2, Nat.testBit_two_pow]; simp; omega
        cases rawBit b (s + w) <;> simp [m, this, hz]

end Sys2Proof.Machine
end

