-- ==== Sys2Proof/Laws/Ops.lean ====
section
/-! SUPPORT. What each shared operation can do, said once: if it answers a next state, then one of these cases holds. The
meanings of every family are made of these. -/

namespace Sys2Proof.Machine

/-! ## Taking an exception -/

@[simp] theorem orRangeFault_ok {α : Type} (v : α) (k : α → Out) : orRangeFault (.ok v) k = k v := rfl
@[simp] theorem orRangeFault_error {α : Type} (e : RangeInfo) (k : α → Out) :
    orRangeFault (.error e) k = .fault (.rangeFault e) := rfl

theorem orRangeFault_next {α : Type} {r : Except RangeInfo α} {k : α → Out} {t : State}
    (h : orRangeFault r k = .next t) : ∃ v, r = .ok v ∧ k v = .next t := by
  cases r with
  | error e => simp at h
  | ok v => exact ⟨v, rfl, by simpa using h⟩

theorem orRangeFault_fault {α : Type} {r : Except RangeInfo α} {k : α → Out} {f : Fault}
    (h : orRangeFault r k = .fault f) :
    (∃ e, r = .error e ∧ f = .rangeFault e) ∨ ∃ v, r = .ok v ∧ k v = .fault f := by
  cases r with
  | error e => exact .inl ⟨e, rfl, by simpa using h.symm⟩
  | ok v => exact .inr ⟨v, rfl, by simpa using h⟩

theorem beginAbort_next {f : FrameFailure} {s t : State} (h : beginAbort f s = .next t) :
    t = { s with sub := .abortCtl (failureCode f s.cfg), failure := some f } := by
  simpa [beginAbort] using h.symm

/-- A data-plane step is one of the two writes of `abort`, or the operation's own step at a place that is none of
them. -/
theorem orAbort_next {s t : State} {own : State → Out} (h : orAbort s own = .next t) :
    (∃ code, s.sub = .abortCtl code ∧ t = { pinWrite .ctlOut (idleCtl s.cfg) s with sub := .abortData code }) ∨
    (∃ code, s.sub = .abortData code ∧ t = finishCode code (pinWrite .dataOut false s)) ∨
    ((∀ code, s.sub ≠ .abortCtl code) ∧ (∀ code, s.sub ≠ .abortData code) ∧ own s = .next t) := by
  unfold orAbort at h
  split at h
  · rename_i code e; exact .inl ⟨code, e, by simpa [abortCtlStep] using h.symm⟩
  · rename_i code e; exact .inr (.inl ⟨code, e, by simpa [abortDataStep] using h.symm⟩)
  · rename_i h1 h2; exact .inr (.inr ⟨h1, h2, h⟩)

/-! ## The two shapes of a meaning -/

theorem oneStep_next {r : Option TurnAway} {i : Instr} {s t : State} {own : State → Out}
    (h : oneStep r i s own = .next t) :
    (s.cur ≠ none ∧ t = turnAway .busy s) ∨
    (s.cur = none ∧ ∃ w, r = some w ∧ t = turnAway w s) ∨
    (s.cur = none ∧ r = none ∧ own (launch i s) = .next t) := by
  unfold oneStep at h
  split at h
  · rename_i j e; exact .inl ⟨by simp [e], by simpa using h.symm⟩
  · rename_i e
    split at h
    · rename_i w; exact .inr (.inl ⟨e, w, rfl, by simpa using h.symm⟩)
    · exact .inr (.inr ⟨e, rfl, h⟩)

theorem running_next {r : Option TurnAway} {i : Instr} {s t : State} {own : State → Out}
    (h : running r i s own = .next t) :
    (s.cur = none ∧ ∃ w, r = some w ∧ t = turnAway w s) ∨
    (s.cur = none ∧ r = none ∧ own (launch i s) = .next t) ∨
    (s.cur = some i ∧ s.delayLeft = 0 ∧ own s = .next t) ∨
    (s.cur = some i ∧ s.delayLeft ≠ 0 ∧ t = s) ∨
    ((∃ j, s.cur = some j ∧ j ≠ i) ∧ t = turnAway .busy s) := by
  unfold running at h
  split at h
  · rename_i e
    split at h
    · rename_i w; exact .inl ⟨e, w, rfl, by simpa using h.symm⟩
    · exact .inr (.inl ⟨e, rfl, h⟩)
  · rename_i j e
    split at h
    · rename_i hj
      subst hj
      split at h
      · rename_i hd; exact .inr (.inr (.inl ⟨e, hd, h⟩))
      · rename_i hd; exact .inr (.inr (.inr (.inl ⟨e, hd, by simpa using h.symm⟩)))
    · rename_i hj; exact .inr (.inr (.inr (.inr ⟨⟨j, e, hj⟩, by simpa using h.symm⟩)))

theorem oneStep_rest {i : Instr} {s : State} {own : State → Out} (h : s.cur = none) :
    oneStep none i s own = own (launch i s) := by simp [oneStep, h]

theorem running_rest {i : Instr} {s : State} {own : State → Out} (h : s.cur = none) :
    running none i s own = own (launch i s) := by simp [running, h]

theorem running_on {r : Option TurnAway} {i : Instr} {s : State} {own : State → Out} (h : s.cur = some i)
    (hd : s.delayLeft = 0) : running r i s own = own s := by simp [running, h, hd]

/-! ## Waiting -/

/-- One step of `WaitPin`: the level is there, or not; the deadline is expired, or not; or the sleep. -/
theorem waitStep_next {p : InPin} {v : Bool} {dl : Word} {pos : WaitPos} {place : WaitPos → Sub}
    {reached isExpired : State → Out} {s t : State} (h : waitStep p v dl pos place reached isExpired s = .next t) :
    (pos = .read ∧ wireLevel p s = v ∧ reached (pinRead p s) = .next t) ∨
    (pos = .read ∧ wireLevel p s ≠ v ∧ t = { pinRead p s with sub := place .test }) ∨
    (pos = .test ∧ expiredAt dl s.now = true ∧ isExpired (clockRead s) = .next t) ∨
    (pos = .test ∧ expiredAt dl s.now = false ∧
      t = { clockRead s with sub := place (if s.cfg.busy then .read else .sleep) }) ∨
    (pos = .sleep ∧ t = { delayUs s.cfg.pollSleep s with sub := place .read }) := by
  unfold waitStep at h
  cases pos with
  | read =>
    simp only at h
    split at h
    · rename_i e; exact .inl ⟨rfl, e, h⟩
    · rename_i e; exact .inr (.inl ⟨rfl, e, by simpa using h.symm⟩)
  | test =>
    simp only at h
    split at h
    · rename_i e; exact .inr (.inr (.inl ⟨rfl, e, h⟩))
    · rename_i e; exact .inr (.inr (.inr (.inl ⟨rfl, by simpa using e, by simpa using h.symm⟩)))
  | sleep => exact .inr (.inr (.inr (.inr ⟨rfl, by simpa using h.symm⟩)))

/-- One step of the counter poll loop. -/
theorem countStep_next {dl : Word} {pos : CountPos} {result : PulseResult → State → Out} {s t : State}
    (h : countStep dl pos result s = .next t) :
    (pos = .count ∧ s.edgeCnt - s.baseCnt = 0 ∧ t = { counterRead s with sub := .count .test }) ∨
    (pos = .count ∧ s.edgeCnt - s.baseCnt = 1 ∧ result .finished (counterRead s) = .next t) ∨
    (pos = .count ∧ s.edgeCnt - s.baseCnt ≠ 0 ∧ s.edgeCnt - s.baseCnt ≠ 1 ∧
      result .tooMany (counterRead s) = .next t) ∨
    (pos = .test ∧ expiredAt dl s.now = true ∧ t = { clockRead s with sub := .count .pin }) ∨
    (pos = .test ∧ expiredAt dl s.now = false ∧
      t = { clockRead s with sub := .count (if s.cfg.busy then .count else .sleep) }) ∨
    (pos = .pin ∧ result (timeoutResult s.wCtlIn) (pinRead .ctlIn s) = .next t) ∨
    (pos = .sleep ∧ t = { delayUs s.cfg.pollSleep s with sub := .count .count }) := by
  unfold countStep at h
  cases pos with
  | count =>
    simp only at h
    split at h
    · rename_i e; exact .inl ⟨rfl, e, by simpa using h.symm⟩
    · rename_i e0
      split at h
      · rename_i e; exact .inr (.inl ⟨rfl, e, h⟩)
      · rename_i e1; exact .inr (.inr (.inl ⟨rfl, e0, e1, h⟩))
  | test =>
    simp only at h
    split at h
    · rename_i e; exact .inr (.inr (.inr (.inl ⟨rfl, e, by simpa using h.symm⟩)))
    · rename_i e; exact .inr (.inr (.inr (.inr (.inl ⟨rfl, by simpa using e, by simpa using h.symm⟩))))
  | pin => exact .inr (.inr (.inr (.inr (.inr (.inl ⟨rfl, by simpa using h⟩)))))
  | sleep => exact .inr (.inr (.inr (.inr (.inr (.inr ⟨rfl, by simpa using h.symm⟩)))))

/-- One step of `WaitForPulse`: the place says which call it is. -/
theorem pulseStep_next {w : Waiter} {dl : Word} {tr : Trigger} {done : PulseResult → State → Out} {s t : State}
    (h : pulseStep w dl tr done s = .next t) :
    (s.sub = .snapshot ∧ w = .interruptCounted ∧ t = { counterRead s with baseCnt := s.edgeCnt, sub := .trigger }) ∨
    (s.sub = .trigger ∧ t = { runTrigger tr s with sub := afterTrigger w }) ∨
    (w = .polling ∧ ∃ pos, s.sub = .first pos ∧
      waitStep .ctlIn false dl pos .first (fun s => .next { s with sub := .second .read })
        (fun s => done .notStarted (setPulse .notStarted s)) s = .next t) ∨
    (w = .polling ∧ ∃ pos, s.sub = .second pos ∧
      waitStep .ctlIn true dl pos .second (fun s => done .finished (setPulse .finished s))
        (fun s => done .started (setPulse .started s)) s = .next t) ∨
    (w = .interruptCounted ∧ ∃ pos, s.sub = .count pos ∧
      countStep dl pos (fun r s => done r (setPulse r s)) s = .next t) := by
  unfold pulseStep at h
  split at h
  · rename_i e; exact .inl ⟨e, rfl, by simpa using h.symm⟩
  · rename_i e; exact .inr (.inl ⟨e, by simpa using h.symm⟩)
  · rename_i pos e; exact .inr (.inr (.inl ⟨rfl, pos, e, h⟩))
  · rename_i pos e; exact .inr (.inr (.inr (.inl ⟨rfl, pos, e, h⟩)))
  · rename_i pos e; exact .inr (.inr (.inr (.inr ⟨rfl, pos, e, h⟩)))
  · simp at h

/-! ## The agents -/

/-- What one turn can do: each agent touches its own part (rules R13, R236). -/
theorem turn_next {e : Event} {s t : State} (h : turn e s = .next t) :
    (e = .engine ∧ engineTurn s = .next t) ∨
    (e = .edgecb ∧ exec .edgeCb s = .next t) ∨
    (∃ v, e = .peerCtl v ∧ t = peerDrivesCtl v s) ∨
    (∃ v, e = .peerData v ∧ t = peerDrivesData v s) ∨
    (∃ us, e = .clock us ∧ t = clockAdvances us s) ∨
    (∃ a, e = .hostArgs a ∧ t = hostSets a s) ∨
    (∃ code, e = .issue code ∧ call (.op code s.args) s = .next t) ∨
    (∃ c, e = .construct c ∧ t = hostConstructs c s) ∨
    (∃ n b, e = .wire n b ∧ call (.wire n b) s = .next t) := by
  cases e <;> simp_all [turn, eq_comm]

/-- What HOST's construction can do: it is turned away, or the new instance is there. -/
theorem hostConstructs_cases (c : Config) (s : State) :
    (∃ w, hostConstructs c s = turnAway w s) ∨
      (c.wf = true ∧ hostConstructs c s = newInstance c s) := by
  unfold hostConstructs
  split
  · rename_i hw; exact .inr ⟨hw, rfl⟩
  · exact .inl ⟨_, rfl⟩

/-- CLOCK's advance keeps rule R54: it never takes the clock to 2^31 or more past ENGINE's last read. -/
theorem clockAdvances_since {a us : Word} {s : State} (h : s.lastRead = some a) (hs : (s.now - a).toNat < 2 ^ 31) :
    ((clockAdvances us s).now - a).toNat = (s.now - a).toNat + min us.toNat (2 ^ 31 - 1 - (s.now - a).toNat) := by
  have e : (clockAdvances us s).now - a =
      (s.now - a) + BitVec.ofNat 32 (min us.toNat (2 ^ 31 - 1 - (s.now - a).toNat)) := by
    rw [clockAdvances_now, clockRoom, h]
    generalize BitVec.ofNat 32 _ = d
    bv_omega
  rw [e, BitVec.toNat_add, BitVec.toNat_ofNat]
  omega

/-- What a call can do: it is turned away, or it starts the instruction its code selects. -/
theorem call_next {c : Code} {s t : State} (h : call c s = .next t) :
    (∃ w, t = turnAway w s) ∨ ∃ i, decode c = .ok i ∧ i ≠ .edgeCb ∧ s.cur = none ∧ exec i s = .next t := by
  unfold call at h
  split at h
  · rename_i e _; exact .inl ⟨.undecodable e, by simpa using h.symm⟩
  · exact .inl ⟨.callbackOnly, by simpa using h.symm⟩
  · rename_i i hi hd
    split at h
    · exact .inl ⟨.busy, by simpa using h.symm⟩
    · rename_i hc; exact .inr ⟨i, hd, fun e => hi e, hc, h⟩

theorem engineTurn_next {s t : State} (h : engineTurn s = .next t) :
    (∃ i, s.cur = some i ∧ exec i s = .next t) ∨ (s.cur = none ∧ t = s) := by
  unfold engineTurn at h
  split at h
  · rename_i i e; exact .inl ⟨i, e, h⟩
  · rename_i e; exact .inr ⟨e, by simpa using h.symm⟩

/-- EDGECB always answers a next state; it touches the counter and the pending edges only (rule R236). -/
theorem execEdgeCb_next (s : State) :
    execEdgeCb s = .next (if 0 < s.edgePending then
      { s with edgePending := s.edgePending - 1, edgeCnt := s.edgeCnt + 1 } else s) := rfl

end Sys2Proof.Machine
end

