-- ==== Sys2Proof/Tests/Slice0.lean ====
section
/-! SUPPORT. The model's own tests: the WellFormed smoke test, every constructor's decoding from a word written out from
rule R102 or R80, one or two steps of each instruction against the vectors of spec/95_test_vectors.md (their ids stand in
the comments) or the examples of the rules, and a witness for the hypotheses of every statement. -/

namespace Sys2Proof.Tests

open Sys2Proof Sys2Proof.Machine Sys2Proof.Claims

/-! ## Helpers -/

/-- A buffer from its bytes. -/
def buf (n : Nat) (bytes : List Byte) : BitBuffer := ⟨n, bytes⟩

/-- An instance of this variant, role and waiter, set up and at rest. -/
def inst (v : Variant) (r : Role) (w : Waiter) : State :=
  let c0 := { Config.initial with variant := v, role := r, waiter := w }
  let c := { c0 with peerFrameTimeout := c0.frameTimeout }
  { State.reset with
    cfg := c, txbuf := zeros (txWidth c), rxbuf := zeros (rxWidth c), setupDone := true, dirCtlOut := .output
    dirDataOut := .output, outCtl := idleCtl c }

def proTc : State := inst .pro .throttleClient .polling
def proJc : State := inst .pro .joystickClient .polling
def stdTc : State := inst .std .throttleClient .polling
def stdJcPoll : State := inst .std .joystickClient .polling
def stdJcIrq : State := { inst .std .joystickClient .interruptCounted with attached := true }

/-- `s` with the operation `i` running at this place. -/
def place (s : State) (i : Instr) (p : Phase) (c : BitVec 7) (sub : Sub) : State :=
  { s with cur := some i, phase := p, cyc := c, sub := sub }

/-- What the next state answers to a question; `d` if there is none. -/
def ask {α : Type} (o : Out) (d : α) (f : State → α) : α :=
  match o with
  | .next t => f t
  | _ => d

/-- The result HOST sees in the next state. -/
def resultOf (o : Out) : Result := ask o .nothing State.result

/-- The outcome is a RangeFault. -/
def isRangeFault (o : Out) : Bool :=
  match o with
  | .fault (.rangeFault _) => true
  | _ => false

/-- Why the call was turned away. -/
def turnedOf (o : Out) : Option TurnAway := ask o none State.turned

/-- The record of vector C7. -/
def recC7 : JoystickState :=
  { JoystickState.defaults with
    x := 0x2A5, y := 0x13C, z := 0x3FF, hat1 := 9, hat2 := 4, mode := .mode2, trigger1 := true, c := true, t6 := true }
def bytesC7 : BitBuffer := buf 56 [0xA5, 0x3C, 0xC6, 0xFF, 0x84, 0x49, 0x80]

/-- The record of vector K3. -/
def recK3 : JoystickState :=
  { JoystickState.defaults with
    x := 0x5A5, y := 0x23C, z := 0x3FF, hat1 := 6, hat2 := 9, mode := .mode3, trigger2 := true, pinkie := true
    t1 := true }
def bytesK3 : BitBuffer := buf 64 [0xA5, 0x3C, 0xD5, 0xFF, 0x96, 0x42, 0x81, 0xE6]

/-- The record of vector G15. -/
def recG15 : ProConfig :=
  { ProConfig.defaults with
    brightness := 17, pov1Blink := true, buttonALed := .red, fireLed := false, t5t6Led := .amber }
def bytesG15 : BitBuffer := buf 19 [0xB1, 0xAD, 0x00]

/-! ## WellFormed: an ill-formed term for each check, refused -/

theorem test_refuses_bb_zero_of_no_bits : (Instr.bbZero 0).wellFormed = false := by decide
theorem test_refuses_bb_zero_of_65_bits : (Instr.bbZero 65).wellFormed = false := by decide
theorem test_refuses_empty_buffer : (buf 0 []).wf = false := by decide
theorem test_refuses_buffer_with_a_byte_too_few : (buf 19 [0, 0]).wf = false := by decide
theorem test_refuses_buffer_with_a_byte_too_many : (buf 56 [0, 0, 0, 0, 0, 0, 0, 0]).wf = false := by decide
theorem test_refuses_ill_formed_operands :
    let b := buf 8 []
    (Instr.bbGetBit b 0).wellFormed = false ∧ (Instr.bbSetBit b 0 0).wellFormed = false ∧
      (Instr.bbGetField b 0 1).wellFormed = false ∧ (Instr.bbSetField b 0 1 0).wellFormed = false ∧
      (Instr.bbGetByte b 0).wellFormed = false ∧ (Instr.bbSetByte b 0 0).wellFormed = false ∧
      (Instr.decProState b).wellFormed = false ∧ (Instr.decProCfg b).wellFormed = false ∧
      (Instr.decStdState b).wellFormed = false ∧ (Instr.decStdCfg b).wellFormed = false ∧
      (Instr.checksum b).wellFormed = false := by decide
theorem test_refuses_led_code_that_is_no_bijection :
    ({ LedCode.listing with green := 0 }).wf = false ∧ ({ LedCode.listing with red := 0 }).wf = false ∧
      ({ LedCode.listing with off := 0 }).wf = false ∧ ({ LedCode.listing with red := 1 }).wf = false ∧
      ({ LedCode.listing with off := 1 }).wf = false ∧ ({ LedCode.listing with off := 2 }).wf = false := by decide
theorem test_refuses_ill_formed_timing :
    ({ Config.initial with noPeerCode := 0 }).wf = false ∧ ({ Config.initial with proFrameTimeout := 0 }).wf = false ∧
      ({ Config.initial with proFrameTimeout := 0x80000000, proBackoff := 0xFFFFFFFF }).wf = false ∧
      ({ Config.initial with proBackoff := 0 }).wf = false ∧
      ({ Config.initial with noPeerCode := 20000 }).wf = false ∧
      ({ Config.initial with variant := .pro, peerFrameTimeout := 20001 }).wf = false ∧
      ({ Config.initial with peerFrameTimeout := 30001 }).wf = false ∧
      ({ Config.initial with role := .throttleClient, stdTcBackoff := 19999 }).wf = false ∧
      ({ Config.initial with stdFrameTimeout := 0 }).wf = false ∧
      ({ Config.initial with stdFrameTimeout := 0x80000000 }).wf = false ∧
      ({ Config.initial with stdJcBackoff := 0 }).wf = false ∧ ({ Config.initial with stdJcBackoff := 1 }).wf = false ∧
      ({ Config.initial with stdTcBackoff := 0 }).wf = false ∧
      ({ Config.initial with stdTcBackoff := 1 }).wf = false := by decide
theorem test_refuses_ill_formed_pulses :
    ({ Config.initial with stdConfirmPulse := 14 }).wf = false ∧ ({ Config.initial with stdBitPulse := 0 }).wf = false ∧
      ({ Config.initial with stdConfigPulse := 49 }).wf = false ∧ ({ Config.initial with stdCfgLow := 0 }).wf = false ∧
      ({ Config.initial with stdCfgHigh := 0 }).wf = false ∧
      ({ Config.initial with pollSleep := 1000 }).wf = false := by decide
theorem test_refuses_std_strict :
    ({ Config.initial with stdStrict := true }).wf = false ∧
      ({ Config.initial with variant := .pro, stdStrict := true }).wf = true := by decide
theorem test_refuses_ill_formed_call :
    decode (.op 0x00 { Args.defaults with n := 65 }) = .error (.illFormed 0x00) ∧
      decode (.op 0x99 Args.defaults) = .error (.unknownOp 0x99) ∧ decode (.wire 20 0) = .error (.unknownWidth 20) := by
  decide

/-! ## Decoding: family in the high nibble, operation in the low one (rule R102) -/

theorem test_decodes_bit_buffer_words :
    decodeTableWord 8 0b00000000 = some (.bbZero 64) ∧
      decodeTableWord 8 0b00000001 = some (.bbGetBit Args.defaults.buf 0) ∧
      decodeTableWord 8 0b00000010 = some (.bbSetBit Args.defaults.buf 0 0) ∧
      decodeTableWord 8 0b00000011 = some (.bbGetField Args.defaults.buf 0 1) ∧
      decodeTableWord 8 0b00000100 = some (.bbSetField Args.defaults.buf 0 1 0) ∧
      decodeTableWord 8 0b00000101 = some (.bbGetByte Args.defaults.buf 0) ∧
      decodeTableWord 8 0b00000110 = some (.bbSetByte Args.defaults.buf 0 0) := by decide
theorem test_decodes_pro_codec_words :
    decodeTableWord 8 0b00010000 = some (.encProState .defaults) ∧
      decodeTableWord 8 0b00010001 = some (.decProState Args.defaults.buf) ∧
      decodeTableWord 8 0b00010010 = some (.encProCfg .defaults) ∧
      decodeTableWord 8 0b00010011 = some (.decProCfg Args.defaults.buf) := by decide
theorem test_decodes_std_codec_words :
    decodeTableWord 8 0b00100000 = some (.encStdState .defaults) ∧
      decodeTableWord 8 0b00100001 = some (.decStdState Args.defaults.buf) ∧
      decodeTableWord 8 0b00100010 = some (.encStdCfg .defaults) ∧
      decodeTableWord 8 0b00100011 = some (.decStdCfg Args.defaults.buf) ∧
      decodeTableWord 8 0b00100100 = some (.checksum Args.defaults.buf) := by decide
theorem test_decodes_timing_words :
    decodeTableWord 8 0b00110000 = some (.deadline 0) ∧ decodeTableWord 8 0b00110001 = some (.expired 0) ∧
      decodeTableWord 8 0b00110010 = some (.waitPin .ctlIn false 0) := by decide
theorem test_decodes_pulse_words :
    decodeTableWord 8 0b01000000 = some (.waitPulsePoll 0 .none) ∧
      decodeTableWord 8 0b01000001 = some (.waitPulseIrq 0 .none) ∧ decodeTableWord 8 0b01000010 = some .edgeCb := by
  decide
theorem test_decodes_pro_engine_words :
    decodeTableWord 8 0b01010000 = some .setupProJc ∧ decodeTableWord 8 0b01010001 = some .setupProTc ∧
      decodeTableWord 8 0b01010010 = some (.pollPro .defaults 0) ∧
      decodeTableWord 8 0b01010011 = some (.sendPro .defaults 0) ∧
      decodeTableWord 8 0b01010100 = some .peekPro := by decide
theorem test_decodes_std_engine_words :
    decodeTableWord 8 0b01100000 = some .setupStdJc ∧ decodeTableWord 8 0b01100001 = some .setupStdTc ∧
      decodeTableWord 8 0b01100010 = some (.pollStd .defaults 0) ∧
      decodeTableWord 8 0b01100011 = some (.sendStd .defaults 0) ∧
      decodeTableWord 8 0b01100100 = some .peekStd := by decide
/-- The wire words of vectors C7, G15, K3 and S2, byte 0 lowest. -/
theorem test_decodes_wire_words :
    decodeTableWord 56 0x804984FFC63CA5 = some (.wireProState 0x804984FFC63CA5) ∧
      decodeTableWord 24 0x00ADB1 = some (.wireProCfg 0x0ADB1) ∧
      decodeTableWord 64 0xE6814296FFD53CA5 = some (.wireStdState 0xE6814296FFD53CA5) ∧
      decode (.wire 8 0xE4) = .ok (.wireStdCfg 0xE4) := by decide
/-- Each operand goes to its own place. -/
theorem test_decodes_operands :
    let a := { Args.defaults with
      n := 19, buf := bytesG15, i := 3, start := 4, width := 5, k := 2, v := 7, us := 8, dl := 9, waitMicros := 10
      pin := .dataIn, level := true, trig := .toggleReq }
    decode (.op 0x02 a) = .ok (.bbSetBit bytesG15 3 7) ∧ decode (.op 0x04 a) = .ok (.bbSetField bytesG15 4 5 7) ∧
      decode (.op 0x06 a) = .ok (.bbSetByte bytesG15 2 7) ∧ decode (.op 0x30 a) = .ok (.deadline 8) ∧
      decode (.op 0x32 a) = .ok (.waitPin .dataIn true 9) ∧ decode (.op 0x41 a) = .ok (.waitPulseIrq 9 .toggleReq) ∧
      decode (.op 0x53 a) = .ok (.sendPro .defaults 10) := by decide
/-- What the host asks: the row's instruction is what the first step after reset runs. -/
theorem test_fetch_word_runs_first :
    resultOf (step (State.reset.withFetchWord 8 0b00100010)) = .buffer (buf 8 [0x7F]) ∧
      resultOf (step (State.reset.withFetchWord 24 0x00ADB1)) = .proConfig recG15 true ∧
      ask (step (State.reset.withFetchWord 8 0b01100000)) none State.cur = some .setupStdJc := by decide

/-! ## BitBuffer -/

theorem test_bb_zero : resultOf (exec (.bbZero 19) State.reset) = .buffer (buf 19 [0, 0, 0]) := by decide  -- B2
theorem test_bb_get_bit : resultOf (exec (.bbGetBit (buf 16 [0x00, 0x80]) 15) State.reset) = .bit true := by decide  -- B8
theorem test_bb_get_bit_fault : isRangeFault (exec (.bbGetBit (buf 19 [0, 0, 0]) 19) State.reset) = true := by
  decide  -- R111
theorem test_bb_set_bit :
    resultOf (exec (.bbSetBit (buf 8 [0xFF]) 3 2) State.reset) = .buffer (buf 8 [0xF7]) := by decide  -- B7, R112
theorem test_bb_set_bit_fault : isRangeFault (exec (.bbSetBit (buf 19 [0, 0, 0]) 19 1) State.reset) = true := by
  decide  -- B6
theorem test_bb_get_field :
    resultOf (exec (.bbGetField (buf 32 [0x78, 0x56, 0x34, 0x12]) 0 32) State.reset) = .value 0x12345678 := by
  decide  -- B14
theorem test_bb_get_field_fault :
    isRangeFault (exec (.bbGetField (zeros 64) 0 33) State.reset) = true ∧
      isRangeFault (exec (.bbGetField (zeros 56) 50 8) State.reset) = true ∧
      isRangeFault (exec (.bbGetField (zeros 56) 4 0) State.reset) = true := by decide  -- B15, B16, B17
theorem test_bb_set_field :
    resultOf (exec (.bbSetField (buf 16 [0, 0]) 6 4 0xB) State.reset) = .buffer (buf 16 [0xC0, 0x02]) := by
  decide  -- B9
theorem test_bb_set_field_truncates :
    resultOf (exec (.bbSetField (buf 8 [0]) 4 4 0x1F) State.reset) = .buffer (buf 8 [0xF0]) := by decide  -- B12
theorem test_bb_get_byte :
    resultOf (exec (.bbGetByte (buf 19 [0x5F, 0xA9, 0x02]) 2) State.reset) = .byte 0x02 := by decide  -- B19
theorem test_bb_get_byte_fault : isRangeFault (exec (.bbGetByte (zeros 19) 3) State.reset) = true := by decide  -- B20
theorem test_bb_set_byte :
    resultOf (exec (.bbSetByte (buf 64 [0xA5, 0x3C, 0xD5, 0xFF, 0x96, 0x42, 0x81, 0x00]) 7 0x1E6) State.reset) =
      .buffer bytesK3 := by decide  -- B18

/-! ## Codecs -/

theorem test_enc_pro_state : resultOf (exec (.encProState recC7) State.reset) = .buffer bytesC7 := by decide  -- C7
theorem test_enc_pro_state_truncates :
    resultOf (exec (.encProState { JoystickState.defaults with x := 0xFFFF }) State.reset) =
      .buffer (buf 56 [0xFF, 0, 0x03, 0, 0, 0, 0]) := by decide  -- C2
theorem test_dec_pro_state : resultOf (exec (.decProState bytesC7) State.reset) = .state recC7 true := by decide  -- C7
theorem test_dec_pro_state_reserved :
    resultOf (exec (.decProState (buf 56 [0, 0, 0x30, 0, 0x09, 0x60, 0])) State.reset) = .state .defaults true := by
  decide  -- C4
theorem test_enc_pro_cfg : resultOf (exec (.encProCfg recG15) State.reset) = .buffer bytesG15 := by decide  -- G15
theorem test_enc_pro_cfg_straddles :
    resultOf (exec (.encProCfg { ProConfig.defaults with t3t4Led := .red }) State.reset) =
      .buffer (buf 19 [0x5F, 0x29, 0x03]) := by decide  -- G10
theorem test_dec_pro_cfg : resultOf (exec (.decProCfg bytesG15) State.reset) = .proConfig recG15 true := by decide  -- G15
theorem test_dec_pro_cfg_of_zeros :
    resultOf (exec (.decProCfg (zeros 19)) State.reset) =
      .proConfig ⟨0, false, true, .amber, .amber, .amber, .amber, .amber, .amber⟩ true := by decide  -- G17
theorem test_enc_std_state : resultOf (exec (.encStdState recK3) State.reset) = .buffer bytesK3 := by decide  -- K3
theorem test_enc_std_state_truncates :
    resultOf (exec (.encStdState { JoystickState.defaults with x := 0xFFFF }) State.reset) =
      .buffer (buf 64 [0xFF, 0, 0x07, 0, 0, 0, 0, 0xF8]) := by decide  -- K14
theorem test_dec_std_state :
    ask (exec (.decStdState bytesK3) State.reset) (Result.nothing, false) (fun t => (t.result, t.ok)) =
      (.state recK3 true, true) := by decide  -- K4
theorem test_dec_std_state_bad_checksum :
    ask (exec (.decStdState (buf 64 [0xA5, 0x3C, 0xD5, 0xFF, 0x96, 0x42, 0x81, 0xE7])) { State.reset with ok := true })
      true State.ok = false := by decide  -- K6
theorem test_enc_std_cfg :
    resultOf (exec (.encStdCfg ⟨200, true⟩) State.reset) = .buffer (buf 8 [0xC8]) := by decide  -- S4
theorem test_dec_std_cfg : resultOf (exec (.decStdCfg (buf 8 [0xE4])) State.reset) = .stdConfig ⟨100, true⟩ true := by
  decide  -- S6
theorem test_checksum : resultOf (exec (.checksum { bytesK3 with bytes := bytesK3.bytes.set 7 0 }) State.reset) =
    .byte 0xE6 := by decide  -- K1
theorem test_checksum_of_short_buffer : isRangeFault (exec (.checksum (zeros 48)) State.reset) = true := by decide
/-- A Pro frame given to the Std decode (rule R105). -/
theorem test_dec_std_state_of_pro_frame : isRangeFault (exec (.decStdState bytesC7) State.reset) = true := by decide
theorem test_wire_pro_state :
    resultOf (exec (.wireProState 0x804984FFC63CA5) State.reset) = .state recC7 true := by decide  -- C7
theorem test_wire_pro_cfg : resultOf (exec (.wireProCfg 0x0ADB1) State.reset) = .proConfig recG15 true := by decide  -- G15
theorem test_wire_std_state :
    resultOf (exec (.wireStdState 0xE6814296FFD53CA5) State.reset) = .state recK3 true := by decide  -- K3
theorem test_wire_std_cfg : resultOf (exec (.wireStdCfg 0xE4) State.reset) = .stdConfig ⟨100, true⟩ true := by decide  -- S6

/-! ## Timing and pulses -/

theorem test_deadline_wraps :
    resultOf (exec (.deadline 5000) { State.reset with now := 0xFFFFFF00 }) = .time 0x00001288 := by decide  -- T2
theorem test_expired_across_wrap :
    resultOf (exec (.expired 0x00000010) { State.reset with now := 0xFFFFFFF0 }) = .flag false ∧
      resultOf (exec (.expired 0xFFFFFFF0) { State.reset with now := 0x00000010 }) = .flag true := by decide  -- T8, T9
theorem test_expired_boundary :
    resultOf (exec (.expired 0x1288) { State.reset with now := 0x1288 }) = .flag true ∧
      resultOf (exec (.expired 0x1288) { State.reset with now := 0x1287 }) = .flag false ∧
      resultOf (exec (.expired 0x1288) { State.reset with now := 0x80001289 }) = .flag false := by decide  -- T6, T5, T11
theorem test_wait_pin_reads_first :
    ask (exec (.waitPin .ctlIn true 100) { State.reset with now := 5000, wCtlIn := true }) (Result.nothing, [])
      (fun t => (t.result, t.calls)) = (.flag true, [.pinRead .ctlIn true]) := by decide  -- T14
theorem test_wait_pin_times_out :
    resultOf (execSteps (.waitPin .ctlIn true 100) 2 { State.reset with now := 100 }) = .flag false := by decide  -- T13
theorem test_wait_pulse_poll_line_already_low :
    ask (execSteps (.waitPulsePoll 100 .toggleReq) 2 stdJcPoll) (Sub.start, false) (fun t => (t.sub, t.outCtl)) =
      (.second .read, true) := by decide  -- W4
theorem test_wait_pulse_poll_started :
    resultOf (exec (.waitPulsePoll 5 .none)
      { place stdJcPoll (.waitPulsePoll 5 .none) .idle 0 (.second .test) with now := 5 }) = .pulse .started := by
  decide  -- W3
theorem test_wait_pulse_irq_wraps :
    resultOf (exec (.waitPulseIrq 5 .none)
      { place stdJcIrq (.waitPulseIrq 5 .none) .idle 0 (.count .count) with baseCnt := 0xFFFFFFFF, edgeCnt := 0 }) =
      .pulse .finished := by decide  -- W8
theorem test_wait_pulse_irq_too_many :
    resultOf (exec (.waitPulseIrq 5 .none)
      { place stdJcIrq (.waitPulseIrq 5 .none) .idle 0 (.count .count) with baseCnt := 7, edgeCnt := 9 }) =
      .pulse .tooMany := by decide  -- W7
theorem test_edge_cb_wraps :
    ask (exec .edgeCb { stdJcIrq with edgePending := 1, edgeCnt := 0xFFFFFFFF }) (1, 1)
      (fun t => (t.edgeCnt, t.edgePending)) = (0, 0) := by decide  -- W13
theorem test_peer_edge_is_pending :
    ask (turn (.peerCtl false) { stdJcIrq with wCtlIn := true }) (0, 9) (fun t => (t.edgePending, t.edgeCnt)) = (1, 0) ∧
      ask (turn (.peerCtl true) stdJcIrq) 9 State.edgePending = 0 := by decide  -- W14, W15

/-! ## Setup and peeks -/

theorem test_setup_pro_tc :
    ask (execSteps .setupProTc 6 { proTc with setupDone := false, dirCtlOut := .input }) [] State.calls =
      [.pinMode (.inp .dataIn) .input, .pinMode (.inp .ctlIn) .input, .pinMode (.out .dataOut) .output,
        .pinWrite .dataOut false, .pinMode (.out .ctlOut) .output, .pinWrite .ctlOut false] := by decide  -- E12
theorem test_setup_pro_jc_of_wrong_role : turnedOf (exec .setupProJc proTc) = some .notAccepted := by decide
theorem test_setup_pro_jc :
    ask (execSteps .setupProJc 6 { proJc with setupDone := false, dirCtlOut := .input }) (PinDir.input, false)
      (fun t => (t.dirCtlOut, t.setupDone)) = (.output, true) := by decide  -- R183
theorem test_setup_std_jc_attaches :
    ask (execSteps .setupStdJc 8 { stdJcIrq with attached := false, setupDone := false, edgeCnt := 5 }) (false, 9, none)
      (fun t => (t.attached, t.edgeCnt, t.cur)) = (true, 0, none) := by decide  -- R203
theorem test_setup_std_jc_attaches_once :
    ask (execSteps .setupStdJc 7 stdJcIrq) (some .edgeCb, []) (fun t => (t.cur, t.calls.take 1)) =
      (none, [.pinMode (.inp .dataIn) .input]) := by decide  -- R203
theorem test_setup_std_tc_idles_high :
    ask (execSteps .setupStdTc 6 { stdTc with outCtl := false }) false State.outCtl = true := by decide  -- R204
theorem test_peek_pro :
    resultOf (execSteps .peekPro 2 proTc) = .flag true ∧
      resultOf (execSteps .peekPro 2 { proTc with wCtlIn := true }) = .flag false := by decide  -- E14
theorem test_peek_std : resultOf (exec .peekStd { stdTc with wCtlIn := true }) = .flag true := by decide  -- R205

/-! ## The engines -/

theorem test_send_pro_before_setup :
    turnedOf (exec (.sendPro .defaults 0) { proTc with setupDone := false }) = some .notSetUp := by decide  -- E13
theorem test_send_pro_marker :
    ask (exec (.sendPro .defaults 0) { place proTc (.sendPro .defaults 0) .d 56 .start with wDataIn := true })
      (none, Sub.start) (fun t => (t.failure, t.sub)) = (some .desync, .abortCtl 20000) := by decide  -- E8
theorem test_poll_pro_attention :
    ask (exec (.pollPro .defaults 0) (place proJc (.pollPro .defaults 0) .c 1 .start)) false State.outData = true ∧
      ask (exec (.pollPro .defaults 0) { place proJc (.pollPro .defaults 0) .c 56 .start with outData := true }) true
        State.outData = false := by decide  -- R187
theorem test_poll_pro_second_wait_of_cycle_0 :
    ask (exec (.pollPro .defaults 0)
      { place proJc (.pollPro .defaults 0) .e 0 (.first .test) with outCtl := true, wCtlIn := true }) none
      State.failure = some .peerUnresponsive := by decide  -- C6
theorem test_poll_std_last_bit_cycle :
    ask (exec (.pollStd .defaults 0)
      { place stdJcIrq (.pollStd .defaults 0) .p3 62 (.count .count) with edgeCnt := 1 }) (Phase.idle, 0)
      (fun t => (t.phase, t.cyc)) = (.p4, 63) := by decide  -- R201
theorem test_poll_std_bad_checksum :
    ask (exec (.pollStd .defaults 0)
      { place stdJcIrq (.pollStd .defaults 0) .p7 7 (.seq 1) with rxbuf := buf 64 [1, 0, 0, 0, 0, 0, 0, 0] })
      (Result.nothing, 0, true) (fun t => (t.result, t.err, t.ok)) = (.code 30000, 30000, false) := by decide  -- F3
theorem test_send_std_pulse_low :
    ask (exec (.sendStd .defaults 0) (place stdTc (.sendStd .defaults 0) .s2 0 (.seq 1))) true State.outCtl = false := by
  decide  -- R206
theorem test_send_std_returns :
    ask (exec (.sendStd .defaults 0)
      { place stdTc (.sendStd .defaults 0) .s7 7 .start with rxbuf := buf 8 [0xE4] }) (Result.nothing, StdConfig.defaults)
      (fun t => (t.result, t.outStdCfg)) = (.code 0, ⟨100, true⟩) := by decide  -- F1, S6

/-! ## Witnesses: for every statement with hypotheses, values that meet them, at the ends of their ranges -/

theorem test_meets_BbZeroMakesZeroBuffer : State.reset.cur = none ∧ 1 ≤ 1 ∧ 1 ≤ 64 ∧ 1 ≤ 64 ∧ 64 ≤ 64 := by decide
theorem test_meets_BbGetBitReadsOneBit :
    State.reset.cur = none ∧ (zeros 19).wf = true ∧ ((0 : Int) ≤ 18 ∧ (18 : Int) < (zeros 19).N) ∧
      ((0 : Int) ≤ 0 ∧ (0 : Int) < (zeros 19).N) ∧ ((-1 : Int) < 0 ∨ (zeros 19).N ≤ (-1 : Int)) ∧
      ((19 : Int) < 0 ∨ (zeros 19).N ≤ (19 : Int)) := by decide
theorem test_meets_BbSetBitWritesOneBit :
    (zeros 19).wf = true ∧ State.reset.cur = none ∧ ((0 : Int) ≤ 18 ∧ (18 : Int) < (zeros 19).N) ∧
      ((-1 : Int) < 0 ∨ (zeros 19).N ≤ (-1 : Int)) ∧ ((19 : Int) < 0 ∨ (zeros 19).N ≤ (19 : Int)) := by decide
theorem test_meets_BbGetFieldReadsUnsigned :
    State.reset.cur = none ∧
      ((0 : Int) ≤ 32 ∧ (1 : Int) ≤ 32 ∧ (32 : Int) ≤ 32 ∧ (32 : Int) + 32 ≤ (zeros 64).N) ∧
      ((32 : Int) < 0 ∨ (33 : Int) < 1 ∨ (32 : Int) < 33 ∨ (zeros 64).N < (32 : Int) + 33) ∧
      ((0 : Int) < 0 ∨ (0 : Int) < 1 ∨ (32 : Int) < 0 ∨ (zeros 64).N < (0 : Int) + 0) := by decide
theorem test_meets_BbSetFieldWritesUnsigned :
    (zeros 64).wf = true ∧ State.reset.cur = none ∧
      ((0 : Int) ≤ 63 ∧ (1 : Int) ≤ 1 ∧ (1 : Int) ≤ 32 ∧ (63 : Int) + 1 ≤ (zeros 64).N) ∧
      ((64 : Int) < 0 ∨ (1 : Int) < 1 ∨ (32 : Int) < 1 ∨ (zeros 64).N < (64 : Int) + 1) := by decide
theorem test_meets_BbGetByteReadsBackingByte :
    State.reset.cur = none ∧ (zeros 19).wf = true ∧
      ((0 : Int) ≤ 2 ∧ (2 : Int) < (((zeros 19).N + 7) / 8 : Nat)) ∧
      ((3 : Int) < 0 ∨ (((zeros 19).N + 7) / 8 : Nat) ≤ (3 : Int)) ∧
      ((-1 : Int) < 0 ∨ (((zeros 19).N + 7) / 8 : Nat) ≤ (-1 : Int)) := by decide
theorem test_meets_BbSetByteWritesBackingByte :
    State.reset.cur = none ∧ (zeros 64).wf = true ∧
      ((0 : Int) ≤ 7 ∧ (7 : Int) < (((zeros 64).N + 7) / 8 : Nat)) ∧
      ((8 : Int) < 0 ∨ (((zeros 64).N + 7) / 8 : Nat) ≤ (8 : Int)) := by decide
theorem test_meets_BitBufferAccessLaws :
    (zeros 19).wf = true ∧ ((0 : Int) ≤ 18 ∧ (18 : Int) < (zeros 19).N ∧ (0 : Int) ≤ 17 ∧ (17 : Int) < (zeros 19).N) ∧
      fieldInRange (zeros 19) 15 4 = true ∧ ((0 : Int) ≤ 14 ∧ (14 : Int) < (zeros 19).N ∧ (14 : Int) < 15) ∧
      ((0 : Int) ≤ 1 ∧ 8 * (1 : Int) + 8 ≤ (zeros 19).N) ∧ ((0 : Int) < 3 ∧ (3 : Int) < 4) := by decide
theorem test_meets_EncodeStatements : State.reset.cur = none ∧ proTc.cur = none := by decide
theorem test_meets_DecProStateReadsFields : 56 ≤ bytesC7.N ∧ State.reset.cur = none := by decide
theorem test_meets_DecProCfgReadsFields : 19 ≤ bytesG15.N ∧ State.reset.cur = none := by decide
theorem test_meets_DecStdStateTestsChecksum :
    57 ≤ bytesK3.N ∧ State.reset.cur = none ∧ rawByte bytesK3 7 = xorOfSeven bytesK3 ∧ 57 ≤ (rawPutBit bytesK3 0 false).N ∧
      rawByte (rawPutBit bytesK3 0 false) 7 ≠ xorOfSeven (rawPutBit bytesK3 0 false) := by decide
theorem test_meets_StdConfigCodec :
    8 ≤ (buf 8 [0xE4]).N ∧ (buf 8 [0xE4]).wf = true ∧ (buf 8 [0xE4]).N = 8 ∧ State.reset.cur = none ∧
      resultOf (exec (.decStdCfg (buf 8 [0xE4])) State.reset) = .stdConfig ⟨100, true⟩ true := by decide
theorem test_meets_ChecksumIsXorOfSevenBytes : 49 ≤ (zeros 49).N ∧ (zeros 49).wf = true ∧ State.reset.cur = none := by
  decide
theorem test_meets_ShortBufferRaisesRangeFault :
    State.reset.cur = none ∧ (zeros 55).N < 56 ∧ (zeros 18).N < 19 ∧ (zeros 7).N < 8 ∧ (zeros 56).N ≤ 56 ∧
      (zeros 48).N ≤ 48 := by decide
theorem test_meets_HatModeAndColourTables :
    validDirection 12 = true ∧ validDirection 5 = false ∧ Config.initial.stdModeM47 = true ∧
      LedCode.listing.wf = true := by decide
theorem test_meets_ProRecordsRoundTrip :
    validProState recC7 = true ∧ validProConfig recG15 = true ∧ State.reset.cfg.ledCode.wf = true ∧
      proTc.cfg.ledCode = State.reset.cfg.ledCode ∧ State.reset.cur = none ∧ proTc.cur = none := by decide
theorem test_meets_ProDecodeThenEncode :
    bytesC7.wf = true ∧ bytesC7.N = 56 ∧ State.reset.cur = none ∧ State.reset.cfg.hat1Reserved = .noDirection ∧
      State.reset.cfg.proModeMulti = .allUndefined ∧
      resultOf (exec (.decProState bytesC7) State.reset) = .state recC7 true ∧ bytesG15.wf = true ∧ bytesG15.N = 19 ∧
      State.reset.cfg.ledCode.wf = true ∧
      resultOf (exec (.decProCfg bytesG15) State.reset) = .proConfig recG15 true := by decide
theorem test_meets_StdRecordsRoundTrip :
    validStdState recK3 = true ∧ validStdConfig ⟨127, true⟩ = true ∧ State.reset.cur = none ∧ proTc.cur = none := by
  decide
theorem test_meets_StdDecodeThenEncode :
    bytesK3.wf = true ∧ bytesK3.N = 64 ∧ State.reset.cur = none ∧ State.reset.cfg.hat1Reserved = .noDirection ∧
      State.reset.cfg.stdModeM47 = true ∧ rawByte bytesK3 7 = xorOfSeven bytesK3 ∧
      resultOf (exec (.decStdState bytesK3) State.reset) = .state recK3 true := by decide
theorem test_meets_EverySingleBitErrorDetected :
    bytesK3.wf = true ∧ bytesK3.N = 64 ∧ rawByte bytesK3 7 = xorOfSeven bytesK3 ∧ 0 < 64 ∧ 63 < 64 ∧
      State.reset.cur = none := by decide
theorem test_meets_WireAndTimingStatements : State.reset.cur = none ∧ proTc.cur = none ∧ stdJcIrq.cur = none := by decide
theorem test_meets_DeadlineSurvivesClockWrap :
    let s := { State.reset with now := 0xFFFFFFFF }
    let u := { State.reset with now := 0xFFFFFFFF + BitVec.ofNat 32 (2 ^ 31 - 1) }
    s.cur = none ∧ u.cur = none ∧ u.now = s.now + BitVec.ofNat 32 (2 ^ 31 - 1) ∧
      (0x7FFFFFFF : Word).toNat < 2 ^ 31 ∧ 2 ^ 31 - 1 < 2 ^ 31 ∧ 2 ^ 31 ≤ (0xFFFFFFFF : Word).toNat ∧
      2 ^ 31 - 1 ≤ (0xFFFFFFFF : Word).toNat - 2 ^ 31 := by decide
theorem test_meets_WaitPinReadsThenTests :
    let i := Instr.waitPin .ctlIn true 5
    let at_ := fun sub => place State.reset i .idle 0 sub
    State.reset.cur = none ∧ wireLevel .ctlIn { State.reset with wCtlIn := true } = true ∧
      wireLevel .ctlIn State.reset = !true ∧ (at_ (.first .read)).runsAt i (.first .read) ∧
      (at_ (.first .test)).runsAt i (.first .test) ∧ expiredAt 5 { State.reset with now := 5 }.now = true ∧
      expiredAt 5 { State.reset with now := 4 }.now = false ∧ (at_ (.first .sleep)).runsAt i (.first .sleep) := by decide
theorem test_meets_WaitPulsePollSeesDropThenReturn :
    let i := Instr.waitPulsePoll 5 .toggleReq
    let at_ := fun sub => place stdJcPoll i .idle 0 sub
    stdJcPoll.cur = none ∧ isInstance stdJcPoll.cfg .std .joystickClient = true ∧ stdJcPoll.cfg.waiter = .polling ∧
      stdJcPoll.cfg.stdStrict = false ∧ (at_ (.first .read)).runsAt i (.first .read) ∧
      (at_ (.first .test)).runsAt i (.first .test) ∧ expiredAt 5 5 = true ∧ expiredAt 5 4 = false ∧
      (at_ (.second .read)).runsAt i (.second .read) ∧ { stdJcPoll with wCtlIn := true }.wCtlIn = true ∧
      stdJcPoll.wCtlIn = false ∧ (at_ (.second .test)).runsAt i (.second .test) ∧
      (at_ (.first .sleep)).runsAt i (.first .sleep) ∧ (at_ (.second .sleep)).runsAt i (.second .sleep) := by decide
theorem test_meets_WaitPulseIrqCountsEdges :
    let i := Instr.waitPulseIrq 5 .toggleReq
    let at_ := fun sub => place stdJcIrq i .idle 0 sub
    stdJcIrq.cur = none ∧ isInstance stdJcIrq.cfg .std .joystickClient = true ∧
      stdJcIrq.cfg.waiter = .interruptCounted ∧ stdJcIrq.cfg.stdStrict = false ∧ (at_ .trigger).runsAt i .trigger ∧
      (place stdJcIrq (.waitPulseIrq 5 .none) .idle 0 .trigger).runsAt (.waitPulseIrq 5 .none) .trigger ∧
      (at_ (.count .count)).runsAt i (.count .count) ∧ (0 : Word) - 0 = 0 ∧ (0 : Word) - 0xFFFFFFFF = 1 ∧
      2 ≤ ((1 : Word) - 0xFFFFFFFF).toNat ∧ (at_ (.count .test)).runsAt i (.count .test) ∧ expiredAt 5 5 = true ∧
      expiredAt 5 4 = false ∧ (at_ (.count .pin)).runsAt i (.count .pin) ∧ { stdJcIrq with wCtlIn := true }.wCtlIn = true ∧
      stdJcIrq.wCtlIn = false ∧ (at_ (.count .sleep)).runsAt i (.count .sleep) := by decide
theorem test_meets_EdgeCallbackCountsOneEdge :
    0 < { stdJcIrq with edgePending := 1 }.edgePending ∧ stdJcIrq.edgePending = 0 := by decide
theorem test_meets_EdgesAreNeverLost :
    { stdJcIrq with wCtlIn := true }.inv = true ∧
      ask (turn (.peerCtl false) { stdJcIrq with wCtlIn := true }) 0 State.edgePending = 1 ∧
      Event.peerCtl false ≠ .engine ∧ Event.peerCtl false ≠ .construct Config.initial := by decide
theorem test_meets_SetupProDrivesIdleLevels :
    isInstance proJc.cfg .pro .joystickClient = true ∧ proJc.cur = none ∧
      isInstance proTc.cfg .pro .throttleClient = true ∧ proTc.cur = none := by decide
theorem test_meets_SetupStdDrivesIdleLevels :
    stdTc.cur = none ∧ stdTc.cfg.stdStrict = false ∧ isInstance stdTc.cfg .std .throttleClient = true ∧
      stdJcPoll.cur = none ∧ stdJcPoll.cfg.stdStrict = false ∧
      isInstance stdJcPoll.cfg .std .joystickClient = true ∧ stdJcPoll.cfg.waiter = .polling ∧ stdJcIrq.cur = none ∧
      isInstance stdJcIrq.cfg .std .joystickClient = true ∧ stdJcIrq.cfg.waiter = .interruptCounted ∧
      stdJcIrq.attached = true ∧ { stdJcIrq with attached := false }.attached = false := by decide
theorem test_meets_PeeksReadTheInputs :
    proTc.cur = none ∧ isInstance proTc.cfg .pro .throttleClient = true ∧ proTc.setupDone = true ∧
      (place proTc .peekPro .idle 0 (.peeked false)).runsAt .peekPro (.peeked false) ∧ stdTc.cur = none ∧
      isInstance stdTc.cfg .std .throttleClient = true ∧ stdTc.cfg.stdStrict = false ∧ stdTc.setupDone = true := by decide

/-- States that meet each premise of `waitsFor` for the operation `i` at this place. -/
def meetsWait (b : State) (i : Instr) (p : Phase) (c : BitVec 7) (pl : WaitPos → Sub) (v : Bool) : Bool :=
  let at_ := fun pos => place b i p c (pl pos)
  decide ((at_ .read).standsAt i p (pl .read)) && decide ({ at_ .read with wCtlIn := v }.wCtlIn = v) &&
    decide ({ at_ .read with wCtlIn := !v }.wCtlIn = !v) && decide ((at_ .test).standsAt i p (pl .test)) &&
    expiredAt { at_ .test with dl := 5, now := 5 }.dl 5 && !expiredAt { at_ .test with dl := 5, now := 4 }.dl 4 &&
    decide ((at_ .sleep).standsAt i p (pl .sleep))

/-- States that meet each premise of `awaitsPulse` for the operation `i` at this phase, in both variants. -/
def meetsPulse (i : Instr) (p : Phase) (c : BitVec 7) : Bool :=
  let poll := fun sub => place stdJcPoll i p c sub
  let irq := fun sub => place stdJcIrq i p c sub
  ([.snapshot, .trigger, .count .count, .count .test, .count .pin, .count .sleep].all fun sub =>
    decide ((irq sub).standsAt i p sub) && decide ((irq sub).cfg.waiter = .interruptCounted)) &&
  ([.trigger, .first .read, .first .test, .first .sleep, .second .read, .second .test, .second .sleep].all fun sub =>
    decide ((poll sub).standsAt i p sub) && decide ((poll sub).cfg.waiter = .polling)) &&
  decide ((0 : Word) - 0xFFFFFFFF = 1) && decide (2 ≤ ((1 : Word) - 0xFFFFFFFF).toNat)

theorem test_meets_SendProFollowsItsLabels :
    let i := Instr.sendPro recC7 100
    proTc.cur = none ∧ isInstance proTc.cfg .pro .throttleClient = true ∧ proTc.setupDone = true ∧
      (place proTc i .a 55 .start).standsAt i .a .start ∧ proTc.txbuf.N = 56 ∧ (55 : BitVec 7).toNat ≤ 55 ∧
      56 ≤ (56 : BitVec 7).toNat ∧ (place proTc i .b 0 .start).standsAt i .b .start ∧
      meetsWait proTc i .c 0 .first true = true ∧ (place proTc i .d 55 .start).standsAt i .d .start ∧
      { proTc.cfg with proStrict := true }.proStrict = true ∧ proTc.cfg.proStrict = false ∧ proTc.wDataIn = false ∧
      { proTc with wDataIn := true }.wDataIn = true ∧ (56 : BitVec 7).toNat = 56 ∧ proTc.rxbuf.N = 19 ∧
      57 ≤ (75 : BitVec 7).toNat ∧ (75 : BitVec 7).toNat ≤ 75 ∧ (place proTc i .e 3 .start).standsAt i .e .start ∧
      meetsWait proTc i .f 0 .first false = true ∧ meetsWait proTc i .f 74 .first false = true ∧
      meetsWait proTc i .f 75 .first false = true ∧ (place proTc i .f 0 .deadline).standsAt i .f .deadline ∧
      (place proTc i .done 75 .start).standsAt i .done .start := by decide
theorem test_meets_PollProFollowsItsLabels :
    let i := Instr.pollPro recG15 100
    proJc.cur = none ∧ isInstance proJc.cfg .pro .joystickClient = true ∧ proJc.setupDone = true ∧
      meetsWait proJc i .a 0 .first true = true ∧ (place proJc i .b 55 .start).standsAt i .b .start ∧
      proJc.rxbuf.N = 56 ∧ (place proJc i .b 56 .start).standsAt i .b .start ∧
      (place proJc i .c 0 .start).standsAt i .c .start ∧ (place proJc i .c 55 .start).standsAt i .c .start ∧
      (place proJc i .c 75 .start).standsAt i .c .start ∧ proJc.txbuf.N = 19 ∧
      (place proJc i .d 0 .start).standsAt i .d .start ∧ meetsWait proJc i .e 0 .first false = true ∧
      (place proJc i .f 0 .start).standsAt i .f .start ∧ (place proJc i .f 74 .start).standsAt i .f .start ∧
      (place proJc i .f 75 .start).standsAt i .f .start ∧ (place proJc i .f 0 .deadline).standsAt i .f .deadline ∧
      (place proJc i .done 75 .start).standsAt i .done .start := by decide
theorem test_meets_ProDeadlineReplacedOnce :
    let i := Instr.sendPro .defaults 0
    let s := { place proTc i .f 0 .deadline with dl := 7 }
    s.inv = true ∧ s.cur = some i ∧ ask (exec i s) 7 State.dl ≠ s.dl := by decide
theorem test_meets_PollStdFollowsItsLabels :
    let i := Instr.pollStd .defaults 100
    stdJcIrq.cur = none ∧ isInstance stdJcIrq.cfg .std .joystickClient = true ∧ stdJcIrq.cfg.stdStrict = false ∧
      stdJcIrq.setupDone = true ∧ meetsWait stdJcIrq i .p1 0 .first true = true ∧ meetsPulse i .p2 0 = true ∧
      (place stdJcIrq i .p2 0 .deadline).standsAt i .p2 .deadline ∧
      (place stdJcIrq i .p3 62 .start).standsAt i .p3 .start ∧ (place stdJcIrq i .p4 63 .start).standsAt i .p4 .start ∧
      stdJcIrq.rxbuf.N = 64 ∧ meetsPulse i .p3 62 = true ∧ meetsPulse i .p4 63 = true ∧
      meetsWait stdJcIrq i .p5 63 .first true = true ∧ (place stdJcIrq i .p6 0 .start).standsAt i .p6 .start ∧
      (place stdJcIrq i .p6 7 (.seq 1)).standsAt i .p6 (.seq 1) ∧ stdJcIrq.txbuf.N = 8 ∧
      (place stdJcIrq i .p6 7 (.seq 2)).standsAt i .p6 (.seq 2) ∧
      (place stdJcIrq i .p6 7 (.seq 3)).standsAt i .p6 (.seq 3) ∧
      (place stdJcIrq i .p6 6 (.seq 4)).standsAt i .p6 (.seq 4) ∧
      (place stdJcIrq i .p6 7 (.seq 4)).standsAt i .p6 (.seq 4) ∧ (place stdJcIrq i .p7 7 .start).standsAt i .p7 .start ∧
      (place stdJcIrq i .p7 7 (.seq 1)).standsAt i .p7 (.seq 1) ∧ rawByte stdJcIrq.rxbuf 7 = xorOfSeven stdJcIrq.rxbuf ∧
      rawByte (rawPutBit bytesK3 0 false) 7 ≠ xorOfSeven (rawPutBit bytesK3 0 false) := by decide
theorem test_meets_SendStdFollowsItsLabels :
    let i := Instr.sendStd recK3 100
    stdTc.cur = none ∧ isInstance stdTc.cfg .std .throttleClient = true ∧ stdTc.cfg.stdStrict = false ∧
      stdTc.setupDone = true ∧ meetsWait stdTc i .s1 0 .first true = true ∧
      (place stdTc i .s1 0 .deadline).standsAt i .s1 .deadline ∧ stdTc.txbuf.N = 64 ∧
      (place stdTc i .s2 0 (.seq 0)).standsAt i .s2 (.seq 0) ∧ (place stdTc i .s3 63 (.seq 0)).standsAt i .s3 (.seq 0) ∧
      (place stdTc i .s4 63 (.seq 0)).standsAt i .s4 (.seq 0) ∧ (place stdTc i .s2 0 (.seq 1)).standsAt i .s2 (.seq 1) ∧
      (place stdTc i .s3 63 (.seq 1)).standsAt i .s3 (.seq 1) ∧ (place stdTc i .s4 63 (.seq 1)).standsAt i .s4 (.seq 1) ∧
      (place stdTc i .s2 0 (.seq 2)).standsAt i .s2 (.seq 2) ∧ (place stdTc i .s3 63 (.seq 2)).standsAt i .s3 (.seq 2) ∧
      (place stdTc i .s4 63 (.seq 2)).standsAt i .s4 (.seq 2) := by decide
theorem test_meets_SendStdFollowsItsLabels_later :
    let i := Instr.sendStd recK3 100
    (place stdTc i .s2 0 (.seq 3)).standsAt i .s2 (.seq 3) ∧
      (place stdTc i .s3 62 (.seq 3)).standsAt i .s3 (.seq 3) ∧ (place stdTc i .s3 63 (.seq 3)).standsAt i .s3 (.seq 3) ∧
      meetsWait stdTc i .s3 63 .first stdTc.req = true ∧ meetsWait stdTc i .s4 63 .first stdTc.req = true ∧
      (place stdTc i .s4 63 (.seq 3)).standsAt i .s4 (.seq 3) ∧ meetsWait stdTc i .s5 7 .first false = true ∧
      meetsWait stdTc i .s5 7 .second true = true ∧ (place stdTc i .s5 6 .start).standsAt i .s5 .start ∧
      (place stdTc i .s5 7 .start).standsAt i .s5 .start ∧ stdTc.rxbuf.N = 8 ∧
      meetsWait stdTc i .s6 7 .first false = true ∧ (place stdTc i .s7 7 .start).standsAt i .s7 .start := by decide
theorem test_meets_AbortRestoresIdleAndReturns :
    let i := Instr.sendStd .defaults 0
    isDataPlane i = true ∧ (place stdTc i .s1 0 (.abortCtl 1)).cur = some i ∧ stdTc.delayLeft = 0 ∧
      (place stdTc i .s1 0 (.abortCtl 1)).sub = .abortCtl 1 ∧ (place stdTc i .s1 0 (.abortData 1)).sub = .abortData 1 ∧
      FrameFailure.desync ≠ .noPeer := by decide
/-- One failure of each class: a step that raises it. -/
theorem test_meets_FailureClassesArise :
    ask (exec (.sendPro .defaults 0) (place proTc (.sendPro .defaults 0) .c 0 (.first .test))) none State.failure =
        some .noPeer ∧
      ask (exec (.sendPro .defaults 0) (place proTc (.sendPro .defaults 0) .c 1 (.first .test))) none State.failure =
        some .peerUnresponsive ∧
      ask (exec (.sendPro .defaults 0) { place proTc (.sendPro .defaults 0) .d 56 .start with wDataIn := true }) none
        State.failure = some .desync ∧
      ask (exec (.pollStd .defaults 0)
        { place stdJcIrq (.pollStd .defaults 0) .p7 7 (.seq 1) with rxbuf := rawPutBit bytesK3 0 false }) none
        State.failure = some .checksumFailure := by decide
theorem test_meets_ZeroWaitProbesOnce :
    (proTc.cur = none ∧ proTc.setupDone = true ∧ proTc.cfg.stdStrict = false ∧ proTc.wCtlIn = false ∧
        isInstance proTc.cfg .pro .throttleClient = true) ∧
      (proJc.cur = none ∧ proJc.setupDone = true ∧ proJc.cfg.stdStrict = false ∧ proJc.wCtlIn = false ∧
        isInstance proJc.cfg .pro .joystickClient = true) ∧
      (stdTc.cur = none ∧ stdTc.setupDone = true ∧ stdTc.cfg.stdStrict = false ∧ stdTc.wCtlIn = false ∧
        isInstance stdTc.cfg .std .throttleClient = true) ∧
      (stdJcIrq.cur = none ∧ stdJcIrq.setupDone = true ∧ stdJcIrq.cfg.stdStrict = false ∧ stdJcIrq.wCtlIn = false ∧
        isInstance stdJcIrq.cfg .std .joystickClient = true) ∧
      ({ stdJcPoll with wCtlIn := true }.cur = none ∧ stdJcPoll.setupDone = true ∧ stdJcPoll.cfg.stdStrict = false ∧
        { stdJcPoll with wCtlIn := true }.wCtlIn = true ∧ stdJcPoll.cfg.waiter = .polling ∧
        isInstance stdJcPoll.cfg .std .joystickClient = true) ∧
      ({ stdJcIrq with wCtlIn := true }.wCtlIn = true ∧ stdJcIrq.cfg.waiter = .interruptCounted) ∧
      2 ^ 31 ≤ (0x80000000 : Word).toNat := by decide
theorem test_meets_CallsAreTurnedAway :
    acceptedBy proTc.cfg .setupStdJc = false ∧ proTc.cfg.stdStrict = false ∧ proTc.cur = none ∧
      isWaitPulse .setupStdJc = false ∧ acceptedBy stdJcIrq.cfg (.waitPulseIrq 0 .none) = true ∧
      isWaitPulse (.waitPulseIrq 0 .none) = true ∧ proTc.cfg.variant ≠ .std ∧
      acceptedBy proTc.cfg .peekPro = true ∧ needsSetup .peekPro = true ∧
      { proTc with setupDone := false }.setupDone = false ∧ acceptedBy stdTc.cfg .setupStdTc = true ∧
      isSetup .setupStdTc = true ∧ stdTc.cfg.variant = .std ∧ { stdTc.cfg with stdStrict := true }.stdStrict = true ∧
      (place proTc .peekPro .idle 0 .start).cur = some .peekPro ∧ Instr.peekPro ≠ .setupProTc ∧
      Instr.setupProTc ≠ .edgeCb ∧ (place proTc .peekPro .idle 0 .start).cur ≠ none ∧
      decode (.op 0x99 Args.defaults) = .error (.unknownOp 0x99) := by decide
theorem test_meets_SurroundingsMoveAndDelaysHold :
    let i := Instr.pollStd .defaults 0
    proTc.cur = none ∧ { place stdJcIrq i .p6 0 .start with delayLeft := 1 }.cur = some i ∧ 0 < 1 ∧
      isDataPlane i = true := by decide
/-- A pulse of 15 µs in progress, 5 µs after the last read of the clock; both ends of the advance that R54 allows. -/
theorem test_meets_SurroundingsMoveAndDelaysHold_clock :
    let i := Instr.sendStd .defaults 0
    let s := { place stdTc i .s2 0 (.seq 3) with outCtl := false, now := 5, lastRead := some 0, delayLeft := 15 }
    s.inv = true ∧ s.cur ≠ none ∧ (s.now - 0).toNat + (0x7FFFFFFA : Word).toNat < 2 ^ 31 ∧
      2 ^ 31 ≤ (s.now - 0).toNat + (0x7FFFFFFB : Word).toNat ∧ s.delayLeft = (15 : Word).toNat ∧
      ask (turns [.peerData true, .clock 16] s) (9, none) (fun t => (t.delayLeft, t.lastRead)) = (0, some 0) ∧
      ask (exec .peekStd stdTc) none State.lastRead = none ∧
      ask (turn .engine { place stdTc i .s1 0 (.first .test) with now := 5, lastRead := some 0 }) none State.lastRead =
        some 5 ∧
      proTc.cfg.wf = true ∧ { proTc.cfg with noPeerCode := 0 }.wf = false := by decide
/-- The clock stands still 2^31 - 1 past the last read (rule R54), a delay goes on to its end (rule R55). -/
theorem test_clock_is_monotonic :
    ask (turns [.clock 0x7FFFFFFF, .clock 0x7FFFFFFF] { stdTc with now := 9, lastRead := some 9 }) 0 State.now =
      0x80000008 := by decide
/-- A wait of 2^31 is expired at its first test, whatever the clock has advanced by then (rules R165, R276, U13). -/
theorem test_long_wait_is_expired_at_once :
    ask (turns [.issue 0x63, .engine, .clock 7, .engine]
      { stdTc with args := { Args.defaults with waitMicros := 0x80000000 } }) none State.failure = some .noPeer := by decide
/-- From reset HOST constructs another instance, which then accepts its Setup (rules R74, R261). -/
theorem test_constructs_other_instance :
    ask (turns [.construct proTc.cfg, .issue 0x51] State.reset) (none, 0) (fun t => (t.cur, t.txbuf.N)) =
      (some .setupProTc, 56) ∧
      turnedOf (turn (.construct { proTc.cfg with noPeerCode := 0 }) State.reset) = some .notConstructible := by decide
/-- HOST resets side A in mid-frame: the lines keep their levels; side B, whose clock passes the frame deadline, returns
its back-off with idle outputs, and A is ready for its Setup (rules R191 (b), R261). -/
theorem test_reset_in_mid_frame :
    let a := { place proTc (.sendPro .defaults 0) .c 5 (.first .read) with outCtl := true }
    let b := { place proJc (.pollPro .defaults 0) .e 5 (.first .read) with outCtl := true, wCtlIn := true, dl := 9 }
    (match linkTurns [.onA (.construct a.cfg), .onB (.clock 10), .onB .engine, .onB .engine, .onB .engine, .onB .engine]
        ⟨a, b⟩ with
      | some m => (m.a.cur, m.a.phase, m.a.outCtl, m.a.setupDone, m.b.cur, m.b.result, m.b.outCtl)
      | none => (none, .done, false, true, none, .nothing, true)) =
      (none, .idle, true, false, none, .code proJc.cfg.proBackoff, false) := by decide
/-- What R279 has a run observe: two return values in order, the final wires, and that nothing is queued. -/
theorem test_observed_result :
    ask (turns [.issue 0x22, .issue 0x24] State.reset) [] (fun t => t.observed.answers) =
      [⟨.buffer (buf 8 [0x7F]), .nothing⟩, ⟨.byte 0, .nothing⟩] ∧
      State.reset.ended = true ∧ { State.reset with inputs := [.issue 0x22] }.ended = false := by decide
/-- A decode with a wrong checksum is observed as one: its answer has `ok` false (rules R104, R279, P1). -/
theorem test_observed_failed_decode :
    ask (exec (.decStdState (buf 64 [0xA5, 0x3C, 0xD5, 0xFF, 0x96, 0x42, 0x81, 0xE7])) State.reset) [true]
      (fun t => t.observed.answers.map fun a => match a.result with | .state _ ok => ok | _ => true) = [false] := by decide
theorem test_meets_StepRunsDecodedInstruction :
    { State.reset with inputs := [.issue 0x60] }.inputs = .issue 0x60 :: [] ∧ State.reset.cur = none ∧
      decode (.op 0x60 State.reset.args) = .ok .setupStdJc ∧ Instr.setupStdJc ≠ .edgeCb ∧
      { State.reset with inputs := [.wire 8 5] }.inputs = .wire 8 5 :: [] ∧ decode (.wire 8 5) = .ok (.wireStdCfg 5) ∧
      { State.reset with inputs := [.engine] }.inputs = .engine :: [] ∧
      (place stdJcIrq .setupStdJc .idle 0 (.seq 1)).cur = some .setupStdJc ∧
      { State.reset with inputs := [.edgecb] }.inputs = .edgecb :: [] ∧ State.reset.inputs = [] ∧
      decode (.op (BitVec.ofNat 8 0x60) State.reset.args) = .ok .setupStdJc ∧ 0x60 % 256 ≠ 0x42 := by decide
theorem test_meets_DecodeInvertsEncode : (Instr.bbSetField bytesG15 1 2 3).wellFormed = true := by decide
theorem test_meets_OpcodeTableIsFollowed :
    1 ≤ Args.defaults.n ∧ Args.defaults.n ≤ 64 ∧ Args.defaults.buf.wf = true ∧
    (0x07 : Byte).toNat ∉ [0x00, 0x01, 0x02, 0x03, 0x04, 0x05, 0x06, 0x10, 0x11, 0x12, 0x13, 0x20, 0x21, 0x22, 0x23,
      0x24, 0x30, 0x31, 0x32, 0x40, 0x41, 0x42, 0x50, 0x51, 0x52, 0x53, 0x54, 0x60, 0x61, 0x62, 0x63, 0x64] := by decide
/-- A step in the middle of a frame, from a state that meets the invariant. -/
theorem test_meets_StepKeepsInvariant :
    let s := { place proTc (.sendPro .defaults 0) .c 3 (.first .read) with outCtl := true, inputs := [.engine] }
    s.inv = true ∧ ask (step s) .start State.sub = .first .test := by decide
theorem test_meets_EngineNeverLeavesRange :
    let i := Instr.pollPro .defaults 0
    (place proJc i .b 55 .start).inv = true ∧ takesHostBuffer i = false := by decide
theorem test_meets_OutputsIdleAtReturn :
    let i := Instr.sendStd .defaults 0
    let s := place stdTc i .s7 7 .start
    isDataPlane i = true ∧ s.inv = true ∧ s.cur = some i ∧ ask (exec i s) (some i) State.cur = none := by decide
/-- Each kind of element is written by one of its writers. -/
theorem test_meets_EachElementHasItsWriters :
    ask (exec .edgeCb { stdJcIrq with edgePending := 1 }) 0 State.edgeCnt = 1 ∧
      ask (execSteps .setupStdJc 8 { stdJcIrq with attached := false, setupDone := false }) (false, false)
        (fun t => (t.setupDone, t.attached)) = (true, true) ∧
      ask (exec (.waitPulseIrq 5 .none)
        { place stdJcIrq (.waitPulseIrq 5 .none) .idle 0 (.count .count) with edgeCnt := 2 }) .finished State.pwResult =
        .tooMany := by decide
theorem test_meets_HostRecordsSampledOnce :
    ask (exec (.sendPro recC7 100) proTc) Phase.idle State.phase = .a := by decide
theorem test_meets_NothingCarriesOver :
    let s := stdTc
    let u := { stdTc with txbuf := bytesK3, rxbuf := buf 8 [0xE4], dl := 7, ok := true, err := 30000, edgeCnt := 65 }
    s.inv = true ∧ u.inv = true ∧ s.atRest = true ∧ sameButStale s u ∧
      ask (turns [.issue 0x64, .issue 0x63] s) none State.cur = some (.sendStd .defaults 0) := by decide

/-- A schedule with both assumptions of R274, and a wait that runs. -/
def evenOdd (n : Nat) : Event := if n % 2 = 0 then .engine else .clock 1

theorem test_meets_EveryOperationReturns :
    let s := place State.reset (.waitPin .ctlIn true 9) .idle 0 (.first .read)
    s.cur ≠ none ∧ s.inv = true ∧ clockAdvancesForEver evenOdd ∧ callsReturn evenOdd :=
  ⟨by decide, by decide, fun n => ⟨2 * n + 1, 1, by omega, by simp [evenOdd], by decide⟩,
    fun n => ⟨2 * n, by omega, by simp [evenOdd]⟩⟩

/-- A loopback of two Pro instances before their first frame. -/
def proLink : Link := ⟨proTc, proJc⟩
/-- A loopback of two Std instances before their first frame, with the interrupt-counted waiter. -/
def stdLink : Link := ⟨stdTc, { stdJcIrq with wCtlIn := true }⟩

theorem test_meets_ProLoopbackStatements :
    proLink.ready = true ∧ isInstance proLink.a.cfg .pro .throttleClient = true ∧
      isInstance proLink.b.cfg .pro .joystickClient = true ∧ proLink.b.cfg.ledCode = proLink.a.cfg.ledCode ∧
      validProState proLink.a.args.stateRec = true ∧ validProConfig proLink.b.args.proCfg = true ∧
      callsOf [.onA .engine, .onB (.issue 0x52), .onB (.clock 3), .onA (.issue 0x53)] =
        [.onB (.issue 0x52), .onA (.issue 0x53)] := by decide
theorem test_meets_StdLoopbackStatements :
    stdLink.ready = true ∧ isInstance stdLink.a.cfg .std .throttleClient = true ∧
      isInstance stdLink.b.cfg .std .joystickClient = true ∧
      (stdLink.b.cfg.waiter = .interruptCounted ∧ stdLink.b.attached = true) ∧
      validStdState stdLink.a.args.stateRec = true ∧ validStdConfig stdLink.b.args.stdCfg = true ∧
      callsOf [.onA (.issue 0x63), .onB .edgecb, .onB (.issue 0x62)] =
        [.onA (.issue 0x63), .onB (.issue 0x62)] := by decide

/-! The hypotheses of the two statements about a whole frame are met by a whole frame only, so these two runs (and no
other) are long: each is one frame, no call more than the rules make. -/

/-- `n` turns of one side's ENGINE. -/
def onA (n : Nat) : List LinkEvent := List.replicate n (.onA .engine)
def onB (n : Nat) : List LinkEvent := List.replicate n (.onB .engine)

/-- Calls in lockstep, no wait ever failing: the interleaving of rule R189. -/
def proSchedule : List LinkEvent :=
  [.onB (.issue 0x52), .onA (.issue 0x53)] ++ (onA 2 ++ onB 4 ++ onA 3 ++ onB 3 ++ onA 2) ++
    (List.replicate 75 (onA 2 ++ onB 4 ++ onA 3 ++ onB 2 ++ onA 1)).flatten ++ onA 1 ++ onB 1

/-- The same for the Std variant with the polling waiter. -/
def stdSchedule : List LinkEvent :=
  [.onA (.issue 0x63), .onB (.issue 0x62)] ++ onB 2 ++ onA 5 ++ onB 1 ++ [.onA (.clock 100)] ++ onA 1 ++ onB 2 ++
    (List.replicate 64 (onB 2 ++ onA 4 ++ onB 1 ++ [.onA (.clock 100)] ++ onA 1 ++ onB 1)).flatten ++ onB 1 ++
    (List.replicate 8 (onB 3 ++ onA 1 ++ [.onB (.clock 100)] ++ onB 1 ++ onA 2 ++ onB 1 ++ [.onB (.clock 100)])).flatten ++
    onB 2 ++ onA 2

/-- Both sides have returned 0 and hold these records. -/
def arrived (l : Option Link) (f : Link → Bool) : Bool :=
  match l with
  | some m =>
    decide (m.a.cur = none ∧ m.b.cur = none ∧ m.a.result = .code 0 ∧ m.b.result = .code 0) && f m
  | none => false

/-- A loopback whose sides wait for at most 1000 µs and send these records. -/
def linkOf (a b : State) (st : JoystickState) (pc : ProConfig) (sc : StdConfig) : Link :=
  ⟨{ a with args := { a.args with stateRec := st, waitMicros := 1000 } },
    { b with args := { b.args with proCfg := pc, stdCfg := sc, waitMicros := 1000 } }⟩
/-- A whole Pro frame: it meets every hypothesis of ProLoopbackAgrees (rule R189 gives the number of calls). -/
theorem test_meets_ProLoopbackAgrees :
    arrived (linkTurns proSchedule (linkOf proTc proJc recC7 recG15 .defaults)) (fun m =>
      decide (m.b.outState = recC7 ∧ m.a.outProCfg = recG15 ∧ frameCalls m.a.calls = [77, 152, 152, 76, 2] ∧
        frameCalls m.b.calls = [77, 152, 152, 76, 2])) = true := by
  decide +kernel
/-- A whole Std frame: it meets every hypothesis of StdLoopbackStateArrives. -/
theorem test_meets_StdLoopbackStateArrives :
    arrived (linkTurns stdSchedule (linkOf stdTc { stdJcPoll with wCtlIn := true } recK3 .defaults ⟨100, true⟩)) (fun m =>
      decide (m.b.outState = recK3 ∧ m.a.outStdCfg = ⟨100, true⟩)) = true := by decide +kernel
theorem test_meets_loopback_premises :
    (linkOf proTc proJc recC7 recG15 .defaults).ready = true ∧ callsOf proSchedule = [.onB (.issue 0x52), .onA (.issue 0x53)] ∧
      validProState recC7 = true ∧ validProConfig recG15 = true ∧
      (linkOf stdTc { stdJcPoll with wCtlIn := true } recK3 .defaults ⟨100, true⟩).ready = true ∧
      callsOf stdSchedule = [.onA (.issue 0x63), .onB (.issue 0x62)] ∧ validStdState recK3 = true ∧
      validStdConfig ⟨100, true⟩ = true := by decide +kernel

end Sys2Proof.Tests
end

section
/-! Proofs of the statements of 00_scope.md: how the step takes an event and runs a decoded call (O45), and what a
construction starts from (O49). -/

namespace Sys2Proof.Machine

/-! ## Taking the next event -/

theorem step_of_inputs_cons {s : State} {e : Event} {rest : List Event} (h : s.inputs = e :: rest) :
    step s = turn e { s with inputs := rest } := by
  simp only [step, nextEvent, takeEvent, h]

theorem step_of_inputs_nil {s : State} (h : s.inputs = []) :
    step s = turn (Config.freeEvent s.free) { s with free := s.free + 1 } := by
  simp only [step, nextEvent, takeEvent, h]

theorem step_withFetchWord (s : State) (nbits w : Nat) : step (s.withFetchWord nbits w) = turn (tableEvent nbits w) s :=
  step_of_inputs_cons rfl

theorem tableEvent_op {w : Nat} (h : w % 256 ≠ 0x42) : tableEvent 8 w = .issue (BitVec.ofNat 8 w) := if_neg h

/-! ## What a turn runs -/

theorem engineTurn_of_cur {s : State} {i : Instr} (h : s.cur = some i) : engineTurn s = exec i s := by
  simp only [engineTurn, h]

/-- HOST's call runs what it decodes to when nothing runs; the callback is the one instruction HOST may not issue. -/
theorem call_of_decode {code : Code} {s : State} {i : Instr} (hcur : s.cur = none) (hdec : decode code = .ok i)
    (hcb : i ≠ .edgeCb) : call code s = exec i s := by
  unfold call
  split
  case h_1 hd => simp [hdec] at hd
  case h_2 hd =>
    have : i = .edgeCb := by simpa [hdec] using hd
    exact absurd this hcb
  case h_3 j _ hd =>
    obtain rfl : i = j := by simpa [hdec] using hd
    simp only [hcur]

/-! ## Which codes select the callback -/

theorem decodeOp_eq_edgeCb {code : Nat} {a : Args} (h : decodeOp code a = some .edgeCb) : code = 0x42 := by
  unfold decodeOp at h
  split at h <;> simp_all

theorem decodeWire_ne_edgeCb (nbits bits : Nat) : decodeWire nbits bits ≠ some .edgeCb := by
  unfold decodeWire
  split <;> simp

theorem decodeOp_of_decode {code : Byte} {a : Args} {i : Instr} (h : decode (.op code a) = .ok i) :
    decodeOp code.toNat a = some i := by
  unfold decode at h
  cases hd : decodeOp code.toNat a with
  | none => simp [hd] at h
  | some j =>
    simp only [hd] at h
    split at h
    · simpa using h
    · simp at h

theorem decodeWire_of_decode {nbits bits : Nat} {i : Instr} (h : decode (.wire nbits bits) = .ok i) :
    decodeWire nbits bits = some i := by
  unfold decode at h
  cases hd : decodeWire nbits bits with
  | none => simp [hd] at h
  | some j => simpa [hd] using h

/-- Only the code 0x42 selects the callback (rule R102). -/
theorem ne_edgeCb_of_decode_op {code : Byte} {a : Args} {i : Instr} (h : decode (.op code a) = .ok i)
    (hcode : code.toNat ≠ 0x42) : i ≠ .edgeCb := by
  rintro rfl
  exact hcode (decodeOp_eq_edgeCb (decodeOp_of_decode h))

/-- No wire word is the callback. -/
theorem ne_edgeCb_of_decode_wire {nbits bits : Nat} {i : Instr} (h : decode (.wire nbits bits) = .ok i) :
    i ≠ .edgeCb := by
  rintro rfl
  exact decodeWire_ne_edgeCb nbits bits (decodeWire_of_decode h)

/-- Settles O45: the step is the turn of the event it takes, and a call's turn is `exec` of what it decodes to, since
neither a wire word nor a code other than 0x42 decodes to the callback. -/
theorem stepRunsDecodedInstruction : Obligations.StepRunsDecodedInstruction := by
  refine ⟨?issue, ?wire, ?engine, ?edgecb, ?free, ?placed, ?placedCallback⟩
  case issue =>
    intro s code rest i hin hcur hdec hcb
    exact (step_of_inputs_cons hin).trans (call_of_decode hcur hdec hcb)
  case wire =>
    intro s n b rest i hin hcur hdec
    exact (step_of_inputs_cons hin).trans (call_of_decode hcur hdec (ne_edgeCb_of_decode_wire hdec))
  case engine =>
    intro s rest i hin hcur
    exact (step_of_inputs_cons hin).trans (engineTurn_of_cur hcur)
  case edgecb =>
    intro s rest hin
    exact step_of_inputs_cons hin
  case free =>
    intro s hin
    exact ⟨_, step_of_inputs_nil hin⟩
  case placed =>
    intro s w i hcur hdec hw
    have hcb : i ≠ .edgeCb := ne_edgeCb_of_decode_op hdec (by simpa using hw)
    rw [step_withFetchWord, tableEvent_op hw]
    exact call_of_decode hcur hdec hcb
  case placedCallback =>
    intro s
    exact step_withFetchWord s 8 0x42

/-! ## Right after construction -/

theorem txWidth_pos (c : Config) : 0 < txWidth c := by
  unfold txWidth
  split <;> decide

theorem rxWidth_pos (c : Config) : 0 < rxWidth c := by
  unfold rxWidth
  split <;> decide

@[simp] theorem construct_cfg (c : Config) : (State.construct c).cfg = c := rfl
@[simp] theorem construct_txbuf (c : Config) : (State.construct c).txbuf = zeros (txWidth c) := rfl
@[simp] theorem construct_rxbuf (c : Config) : (State.construct c).rxbuf = zeros (rxWidth c) := rfl
@[simp] theorem construct_cyc (c : Config) : (State.construct c).cyc = 0 := rfl

/-- The buffers a construction makes have their form and the width of this variant and role (rules R29, R260). -/
theorem construct_buffersOk (c : Config) : buffersOk (State.construct c) = true := by
  simp [buffersOk, zeros_wf (txWidth_pos c), zeros_wf (rxWidth_pos c)]

/-- Before Setup an engine at `(IDLE, 0)` that runs nothing is at rest, whatever its pins are (rules R30, R35). -/
theorem construct_placeOk (c : Config) : placeOk (State.construct c) = true := rfl

/-- A construction attaches no callback and leaves no edge pending (rules R42, R260). -/
theorem construct_edgesOk (c : Config) : edgesOk (State.construct c) = true := rfl

/-- No clock value has been read yet (rule R54). -/
theorem construct_clockOk (c : Config) : clockOk (State.construct c) = true := rfl

/-- Construction meets the invariant for every configuration (rules R29, R30, R35, R261). -/
theorem construct_inv (c : Config) : (State.construct c).inv = true := by
  simp [State.inv, construct_buffersOk, construct_placeOk, construct_edgesOk, construct_clockOk]

/-- The configuration of log entry 4 meets the constraints of rules R10, R12 and R208. -/
theorem initial_wf : Config.initial.wf = true := by decide

/-- Settles O49: each part of the invariant holds right after construction, reset is a construction, and its
configuration is one that can be constructed. -/
theorem resetMeetsInvariant : Obligations.ResetMeetsInvariant :=
  ⟨construct_inv, construct_inv Config.initial, initial_wf⟩

end Sys2Proof.Machine
end

section
/-! The hat, mode and colour tables (O18). -/

namespace Sys2Proof.Machine

/-- The valid Directions, one by one: what holds of the nine of rule R21 holds of each valid one. -/
theorem forall_validDirection {P : Direction → Prop}
    (h : P 0 ∧ P 1 ∧ P 2 ∧ P 3 ∧ P 4 ∧ P 6 ∧ P 8 ∧ P 9 ∧ P 12) (d : Direction)
    (hd : validDirection d = true) : P d := by
  obtain ⟨h0, h1, h2, h3, h4, h6, h8, h9, h12⟩ := h
  simp only [validDirection, List.mem_cons, List.not_mem_nil, or_false, decide_eq_true_eq] at hd
  rcases hd with rfl | rfl | rfl | rfl | rfl | rfl | rfl | rfl | rfl <;> assumption

/-- A valid Direction has a `hat1` code of its own in the Pro table (rules R83, R122). -/
theorem proHat1Dir_proHat1Code (c : Config) (d : Direction) (hd : validDirection d = true) :
    proHat1Dir c (proHat1Code d) = d :=
  forall_validDirection (P := fun d => proHat1Dir c (proHat1Code d) = d)
    ⟨rfl, rfl, rfl, rfl, rfl, rfl, rfl, rfl, rfl⟩ d hd

/-- A valid Direction has a `hat1` code of its own in the Std table (rules R92, R142). -/
theorem stdHat1Dir_stdHat1Code (c : Config) (d : Direction) (hd : validDirection d = true) :
    stdHat1Dir c (stdHat1Code d) = d :=
  forall_validDirection (P := fun d => stdHat1Dir c (stdHat1Code d) = d)
    ⟨rfl, rfl, rfl, rfl, rfl, rfl, rfl, rfl, rfl⟩ d hd

/-- An invalid Direction has the code of NoDirection in both tables (rules R127, R147; D27). -/
theorem hat1Codes_of_invalid :
    ∀ d : Direction, validDirection d = false → proHat1Code d = 0 ∧ stdHat1Code d = 0 := by decide

/-- Each cardinal of the second hat is its own bit of the mask (rule R21). -/
theorem directionOf_getLsbD : ∀ r d l u : Bool,
    (directionOf r d l u).getLsbD 0 = r ∧ (directionOf r d l u).getLsbD 1 = d ∧
      (directionOf r d l u).getLsbD 2 = l ∧ (directionOf r d l u).getLsbD 3 = u := by decide

theorem LedCode.wf_iff (l : LedCode) : l.wf = true ↔
    l.amber ≠ l.green ∧ l.amber ≠ l.red ∧ l.amber ≠ l.off ∧ l.green ≠ l.red ∧ l.green ≠ l.off ∧ l.red ≠ l.off := by
  simp [LedCode.wf, and_assoc]

/-- `LED_CODE^-1` inverts a bijection `LED_CODE` (rules R23, R126). -/
theorem ledDecode_ledEncode (l : LedCode) (x : LedColor) (h : l.wf = true) : ledDecode l (ledEncode l x) = x := by
  obtain ⟨hag, har, hao, hgr, hgo, hro⟩ := (LedCode.wf_iff l).mp h
  cases x <;> simp [ledDecode, ledEncode, BitVec.toNat_inj, hag.symm, har.symm, hao.symm, hgr.symm, hgo.symm, hro.symm]

/-- Settles O18: each table row by row, the round trips from the tables' own lemmas. -/
theorem hatModeAndColourTables : Obligations.HatModeAndColourTables := by
  refine ⟨?proHat, ?stdHat, ?proReserved, ?stdReserved, ?hatCodes, hat1Codes_of_invalid, directionOf_getLsbD, ?proModes,
    ?stdModes, ?stdModesM47, rfl, ?ledCodes, ?ledColours, ?listing, ⟨rfl, rfl⟩, ledDecode_ledEncode⟩
  case proHat => intro c; rfl
  case stdHat => intro c; rfl
  case proReserved => intro c; rfl
  case stdReserved => intro c; rfl
  case hatCodes =>
    intro c d hd
    exact ⟨proHat1Dir_proHat1Code c d hd, stdHat1Dir_stdHat1Code c d hd⟩
  case proModes => intro c; exact ⟨rfl, rfl, rfl, rfl, rfl, rfl, rfl, rfl⟩
  case stdModes => intro c; exact ⟨rfl, rfl, rfl, rfl, fun _ => rfl⟩
  case stdModesM47 =>
    intro c hc
    simp [stdMode, hc]
  case ledCodes => intro l; rfl
  case ledColours =>
    intro l hl
    have decodes := fun x => ledDecode_ledEncode l x hl
    simpa [ledEncode] using And.intro (decodes .amber) ⟨decodes .green, decodes .red, decodes .off⟩
  case listing => exact ⟨rfl, rfl⟩

end Sys2Proof.Machine
end

section
/-! Who writes what (O53): a step of an operation leaves each element as it was, or the operation is one of its writers.
The later proofs of this family take from here that an operation touches neither the surroundings nor the directions. -/

namespace Sys2Proof.Machine
open Sys2Proof.Claims

/-! ## What a step may have written -/

/-- The operations that write `REQ` (rule R39). -/
def writesReq (i : Instr) : Prop :=
  i = .setupStdJc ∨ i = .setupStdTc ∨ (∃ r w, i = .pollStd r w) ∨ (∃ st w, i = .sendStd st w) ∨
    (∃ d, i = .waitPulsePoll d .toggleReq) ∨ (∃ d, i = .waitPulseIrq d .toggleReq)

/-- The operations that run `WaitForPulse` (rules R31, R41). -/
def waitsForPulse (i : Instr) : Prop :=
  (∃ d tr, i = .waitPulsePoll d tr) ∨ (∃ d tr, i = .waitPulseIrq d tr) ∨ (∃ r w, i = .pollStd r w)

/-- What a step of the operation `i` from `s` to `t` may have written: each element is as it was, or `i` is one of its
writers (rules R30 to R42, R45, R54, R56, R188, R203). -/
structure Wrote (i : Instr) (s t : State) : Prop where
  cfg : t.cfg = s.cfg
  now : t.now = s.now
  wCtlIn : t.wCtlIn = s.wCtlIn
  wDataIn : t.wDataIn = s.wDataIn
  args : t.args = s.args
  inputs : t.inputs = s.inputs
  setupDone : t.setupDone ≠ s.setupDone → isSetup i = true ∧ t.setupDone = true
  dirs : (t.dirCtlOut ≠ s.dirCtlOut ∨ t.dirDataOut ≠ s.dirDataOut ∨ t.dirCtlIn ≠ s.dirCtlIn ∨
    t.dirDataIn ≠ s.dirDataIn) → isSetup i = true
  edges : t.edgeCnt ≠ s.edgeCnt ∨ t.edgePending ≠ s.edgePending → i = .edgeCb ∨ i = .setupStdJc
  attached : t.attached ≠ s.attached → i = .setupStdJc ∧ t.attached = true
  position : t.phase ≠ s.phase ∨ t.cyc ≠ s.cyc → isDataPlane i = true ∨ t.phase = .idle ∧ t.cyc = 0
  ok : t.ok ≠ s.ok → writesOk i = true
  req : t.req ≠ s.req → writesReq i
  lastRead : t.lastRead ≠ s.lastRead → t.lastRead = some s.now
  history : t.history = s.history ∨ ∃ a, t.history = a :: s.history ∧ t.result = a.result ∧ t.cur = none
  frame : t.err ≠ s.err ∨ t.txbuf ≠ s.txbuf ∨ t.rxbuf ≠ s.rxbuf ∨ t.dl ≠ s.dl → isDataPlane i = true
  outState : t.outState ≠ s.outState → (∃ r w, i = .pollPro r w) ∨ (∃ r w, i = .pollStd r w)
  outProCfg : t.outProCfg ≠ s.outProCfg → ∃ st w, i = .sendPro st w
  outStdCfg : t.outStdCfg ≠ s.outStdCfg → ∃ st w, i = .sendStd st w
  pulse : t.pwResult ≠ s.pwResult ∨ t.baseCnt ≠ s.baseCnt → waitsForPulse i
  outCtl : t.outCtl ≠ s.outCtl → isSetup i = true ∨ isDataPlane i = true ∨ (∃ d tr, i = .waitPulsePoll d tr) ∨
    (∃ d tr, i = .waitPulseIrq d tr)
  outData : t.outData ≠ s.outData → isSetup i = true ∨ isDataPlane i = true

theorem Wrote.refl (i : Instr) (s : State) : Wrote i s s := by constructor <;> simp

theorem changed_trans {α : Type} {a b c : α} {P : Prop} (h : b ≠ a → P) (h' : c ≠ b → P) (hac : c ≠ a) : P := by
  by_cases hab : b = a
  · exact h' (hab ▸ hac)
  · exact h hab

/-- A step that first updates `s` to `u`, leaving the history alone, and then goes on from there to `t`. -/
theorem Wrote.trans {i : Instr} {s u t : State} (h : Wrote i s u) (hist : u.history = s.history) (h' : Wrote i u t) :
    Wrote i s t := by
  constructor
  case cfg => exact h'.cfg.trans h.cfg
  case now => exact h'.now.trans h.now
  case wCtlIn => exact h'.wCtlIn.trans h.wCtlIn
  case wDataIn => exact h'.wDataIn.trans h.wDataIn
  case args => exact h'.args.trans h.args
  case inputs => exact h'.inputs.trans h.inputs
  case setupDone =>
    have := h.setupDone
    have := h'.setupDone
    grind
  case dirs =>
    have := h.dirs
    have := h'.dirs
    grind
  case edges =>
    have := h.edges
    have := h'.edges
    grind
  case attached =>
    have := h.attached
    have := h'.attached
    grind
  case position =>
    have := h.position
    have := h'.position
    grind
  case ok => exact changed_trans h.ok h'.ok
  case req => exact changed_trans h.req h'.req
  case lastRead =>
    have := h.lastRead
    have := h'.lastRead
    have := h.now
    grind
  case history => exact hist ▸ h'.history
  case frame =>
    have := h.frame
    have := h'.frame
    grind
  case outState => exact changed_trans h.outState h'.outState
  case outProCfg => exact changed_trans h.outProCfg h'.outProCfg
  case outStdCfg => exact changed_trans h.outStdCfg h'.outStdCfg
  case pulse =>
    have := h.pulse
    have := h'.pulse
    grind
  case outCtl => exact changed_trans h.outCtl h'.outCtl
  case outData => exact changed_trans h.outData h'.outData

/-! ## The shared operations -/

/-- A piece of the meaning of `i`: whatever it answers, it wrote no more than `i` may write. -/
def WritesAs (i : Instr) (k : State → Out) : Prop := ∀ s t, k s = .next t → Wrote i s t

theorem wrote_turnAway (i : Instr) (why : TurnAway) (s : State) : Wrote i s (turnAway why s) := by
  constructor <;> simp

theorem wrote_launch (i : Instr) (s : State) : Wrote i s (launch i s) := by constructor <;> simp

theorem oneStep_wrote {r : Option TurnAway} {i : Instr} {s t : State} {own : State → Out} (h : WritesAs i own)
    (ht : oneStep r i s own = .next t) : Wrote i s t := by
  rcases oneStep_next ht with ⟨-, rfl⟩ | ⟨-, w, -, rfl⟩ | ⟨-, -, ht⟩
  · exact wrote_turnAway i _ s
  · exact wrote_turnAway i _ s
  · exact (wrote_launch i s).trans rfl (h _ _ ht)

theorem running_wrote {r : Option TurnAway} {i : Instr} {s t : State} {own : State → Out} (h : WritesAs i own)
    (ht : running r i s own = .next t) : Wrote i s t := by
  rcases running_next ht with ⟨-, w, -, rfl⟩ | ⟨-, -, ht⟩ | ⟨-, -, ht⟩ | ⟨-, -, rfl⟩ | ⟨-, rfl⟩
  · exact wrote_turnAway i w s
  · exact (wrote_launch i s).trans rfl (h _ _ ht)
  · exact h _ _ ht
  · exact .refl i t
  · exact wrote_turnAway i _ s

theorem waitStep_wrote {i : Instr} {s t : State} {p : InPin} {v : Bool} {dl : Word} {pos : WaitPos}
    {place : WaitPos → Sub} {reached isExpired : State → Out} (hr : WritesAs i reached) (he : WritesAs i isExpired)
    (h : waitStep p v dl pos place reached isExpired s = .next t) : Wrote i s t := by
  have hpin : Wrote i s (pinRead p s) := by constructor <;> simp
  have hclk : Wrote i s (clockRead s) := by constructor <;> simp
  rcases waitStep_next h with ⟨-, -, h⟩ | ⟨-, -, rfl⟩ | ⟨-, -, h⟩ | ⟨-, -, rfl⟩ | ⟨-, rfl⟩
  · exact hpin.trans rfl (hr _ _ h)
  · constructor <;> simp
  · exact hclk.trans rfl (he _ _ h)
  · constructor <;> simp
  · constructor <;> simp

theorem beginAbort_writesAs (i : Instr) (f : FrameFailure) : WritesAs i (beginAbort f) := by
  rintro s t h
  cases h
  constructor <;> simp

theorem orAbort_wrote {i : Instr} {s t : State} {own : State → Out} (hi : isDataPlane i = true) (h : WritesAs i own)
    (ht : orAbort s own = .next t) : Wrote i s t := by
  rcases orAbort_next ht with ⟨code, -, rfl⟩ | ⟨code, -, rfl⟩ | ⟨-, -, ht⟩
  · constructor <;> simp [hi]
  · constructor <;> simp [hi]
  · exact h _ _ ht

theorem goto_wrote {i : Instr} (hi : isDataPlane i = true) (p : Phase) (c : BitVec 7) (sub : Sub) (s : State) :
    Wrote i s (goto p c sub s) := by constructor <;> simp [hi]

theorem setPulse_wrote {i : Instr} (hi : waitsForPulse i) (r : PulseResult) (s : State) :
    Wrote i s (setPulse r s) := by constructor <;> simp [hi]

/-- The toggle of the request line writes `REQ` and CTL_OUT (rule R172). -/
theorem runTrigger_wrote {i : Instr} (hi : waitsForPulse i) {tr : Trigger} (hreq : tr = .toggleReq → writesReq i)
    (s : State) (sub : Sub) : Wrote i s { runTrigger tr s with sub := sub } := by
  cases tr with
  | none => constructor <;> simp
  | toggleReq =>
    constructor
    case outCtl => rcases hi with hi | hi | ⟨r, w, rfl⟩ <;> simp [*, isDataPlane]
    all_goals simp [hreq]

theorem countStep_wrote {i : Instr} {s t : State} {dl : Word} {pos : CountPos} {result : PulseResult → State → Out}
    (h : ∀ r, WritesAs i (result r)) (ht : countStep dl pos result s = .next t) : Wrote i s t := by
  have hcnt : Wrote i s (counterRead s) := by constructor <;> simp
  have hpin : Wrote i s (pinRead .ctlIn s) := by constructor <;> simp
  rcases countStep_next ht with ⟨-, -, rfl⟩ | ⟨-, -, ht⟩ | ⟨-, -, -, ht⟩ | ⟨-, -, rfl⟩ | ⟨-, -, rfl⟩ | ⟨-, ht⟩ |
    ⟨-, rfl⟩
  · constructor <;> simp
  · exact hcnt.trans rfl (h _ _ _ ht)
  · exact hcnt.trans rfl (h _ _ _ ht)
  · constructor <;> simp
  · constructor <;> simp
  · exact hpin.trans rfl (h _ _ _ ht)
  · constructor <;> simp

theorem pulseStep_wrote {i : Instr} {s t : State} {w : Waiter} {dl : Word} {tr : Trigger}
    {done : PulseResult → State → Out} (hi : waitsForPulse i) (hreq : tr = .toggleReq → writesReq i)
    (h : ∀ r, WritesAs i (done r)) (ht : pulseStep w dl tr done s = .next t) : Wrote i s t := by
  have hres : ∀ r, WritesAs i fun s => done r (setPulse r s) := fun r s t ht =>
    (setPulse_wrote hi r s).trans rfl (h r _ _ ht)
  rcases pulseStep_next ht with ⟨-, -, rfl⟩ | ⟨-, rfl⟩ | ⟨-, pos, -, ht⟩ | ⟨-, pos, -, ht⟩ | ⟨-, pos, -, ht⟩
  · constructor <;> simp [hi]
  · exact runTrigger_wrote hi hreq s _
  · refine waitStep_wrote ?_ (hres _) ht
    rintro s t ⟨⟩
    constructor <;> simp
  · exact waitStep_wrote (hres _) (hres _) ht
  · exact countStep_wrote hres ht

/-! ## The Pro engine -/

theorem proNextCycle_writesAs {i : Instr} (hi : isDataPlane i = true) (entry : Sub) :
    WritesAs i (proNextCycle entry) := by
  intro s t h
  unfold proNextCycle at h
  split at h <;> cases h <;> exact goto_wrote hi _ _ _ s

theorem proFrameDeadline_writesAs {i : Instr} (hi : isDataPlane i = true) (entry : Sub) :
    WritesAs i (proFrameDeadline entry) := by
  intro s t h
  have hdl : Wrote i s { clockRead s with dl := deadlineAt s.now s.cfg.proFrameTimeout } := by constructor <;> simp [hi]
  exact hdl.trans rfl (proNextCycle_writesAs hi entry _ _ h)

theorem sendProStep_writesAs (st : JoystickState) (wait : Word) :
    WritesAs (.sendPro st wait) (sendProStep st wait) := by
  refine fun s t => orAbort_wrote rfl fun s t h => ?_
  split at h
  · -- IDLE
    cases h
    constructor <;> simp [isDataPlane]
  · -- A
    unfold sendProA at h
    split at h
    · obtain ⟨v, -, h⟩ := orRangeFault_next h
      cases h
      constructor <;> simp [isDataPlane]
    · cases h
      constructor <;> simp [isDataPlane]
  · -- B
    cases h
    constructor <;> simp [isDataPlane]
  · -- C
    refine waitStep_wrote ?_ (fun s => beginAbort_writesAs _ _ s) h
    rintro s t ⟨⟩
    exact goto_wrote rfl _ _ _ s
  · -- D
    have hread : Wrote (.sendPro st wait) s (pinRead .dataIn s) := by constructor <;> simp
    unfold sendProD at h
    split at h
    · exact hread.trans rfl (beginAbort_writesAs _ _ _ _ h)
    split at h
    · exact hread.trans rfl (beginAbort_writesAs _ _ _ _ h)
    split at h
    · obtain ⟨b, -, h⟩ := orRangeFault_next h
      cases h
      constructor <;> simp [isDataPlane]
    · cases h
      constructor <;> simp [isDataPlane]
  · -- E
    cases h
    constructor <;> simp [isDataPlane]
  · -- F, the wait
    refine waitStep_wrote ?_ (fun s => beginAbort_writesAs _ _ s) h
    intro s t h
    dsimp only at h
    split at h
    · cases h
      exact goto_wrote rfl _ _ _ s
    · exact proNextCycle_writesAs rfl _ _ _ h
  · exact proFrameDeadline_writesAs rfl _ _ _ h
  · -- DONE
    obtain ⟨r, -, h⟩ := orRangeFault_next h
    cases h
    constructor <;> simp [isDataPlane, writesOk]
  · cases h

theorem pollProStep_writesAs (r : ProConfig) (wait : Word) :
    WritesAs (.pollPro r wait) (pollProStep r wait) := by
  refine fun s t => orAbort_wrote rfl fun s t h => ?_
  split at h
  · -- IDLE
    cases h
    constructor <;> simp [isDataPlane]
  · -- A
    refine waitStep_wrote ?_ (fun s => beginAbort_writesAs _ _ s) h
    rintro s t ⟨⟩
    exact goto_wrote rfl _ _ _ s
  · -- B
    unfold pollProB at h
    split at h
    · obtain ⟨b, -, h⟩ := orRangeFault_next h
      cases h
      constructor <;> simp [isDataPlane]
    · cases h
      constructor <;> simp [isDataPlane]
  · -- C
    unfold pollProC at h
    split at h
    · obtain ⟨v, -, h⟩ := orRangeFault_next h
      cases h
      constructor <;> simp [isDataPlane]
    · cases h
      constructor <;> simp [isDataPlane]
  · -- D
    cases h
    constructor <;> simp [isDataPlane]
  · -- E
    refine waitStep_wrote ?_ (fun s => beginAbort_writesAs _ _ s) h
    rintro s t ⟨⟩
    exact goto_wrote rfl _ _ _ s
  · -- F
    have hlow : Wrote (.pollPro r wait) s (pinWrite .ctlOut false s) := by constructor <;> simp [isDataPlane]
    unfold pollProF at h
    split at h
    · cases h
      exact hlow.trans rfl (goto_wrote rfl _ _ _ _)
    · exact hlow.trans rfl (proNextCycle_writesAs rfl _ _ _ h)
  · exact proFrameDeadline_writesAs rfl _ _ _ h
  · -- DONE
    obtain ⟨r, -, h⟩ := orRangeFault_next h
    cases h
    constructor <;> simp [isDataPlane, writesOk]
  · cases h

theorem peekProStep_writesAs : WritesAs .peekPro peekProStep := by
  intro s t h
  unfold peekProStep at h
  split at h <;> cases h <;> constructor <;> simp

/-! ## The Std engine -/

theorem pollStdSample_writesAs (r : StdConfig) (wait : Word) : WritesAs (.pollStd r wait) pollStdSample := by
  intro s t h
  obtain ⟨b, -, h⟩ := orRangeFault_next h
  cases h
  constructor <;> simp [isDataPlane]

/-- The `WaitForPulse` of POLL.STD, whatever follows its result. -/
theorem pollStdPulse_wrote {r : StdConfig} {wait : Word} {s t : State} {w : Waiter} {dl : Word}
    {done : PulseResult → State → Out} (h : ∀ p, WritesAs (.pollStd r wait) (done p))
    (ht : pulseStep w dl .toggleReq done s = .next t) : Wrote (.pollStd r wait) s t :=
  pulseStep_wrote (.inr (.inr ⟨r, wait, rfl⟩)) (fun _ => .inr (.inr (.inl ⟨r, wait, rfl⟩))) h ht

theorem pollStdP2Done_writesAs (r : StdConfig) (wait : Word) (p : PulseResult) :
    WritesAs (.pollStd r wait) (pollStdP2Done p) := by
  cases p with
  | finished =>
    rintro s t ⟨⟩
    constructor <;> simp
  | started => exact beginAbort_writesAs _ _
  | notStarted => exact beginAbort_writesAs _ _
  | tooMany => exact beginAbort_writesAs _ _

theorem pollStdP3Done_writesAs (r : StdConfig) (wait : Word) (p : PulseResult) :
    WritesAs (.pollStd r wait) (pollStdP3Done p) := by
  cases p with
  | finished =>
    intro s t h
    simp only [pollStdP3Done] at h
    split at h <;> cases h <;> exact goto_wrote rfl _ _ _ s
  | started => exact beginAbort_writesAs _ _
  | notStarted => exact beginAbort_writesAs _ _
  | tooMany => exact beginAbort_writesAs _ _

theorem pollStdP4Done_writesAs (r : StdConfig) (wait : Word) (p : PulseResult) :
    WritesAs (.pollStd r wait) (pollStdP4Done p) := by
  cases p with
  | finished =>
    rintro s t ⟨⟩
    exact goto_wrote rfl _ _ _ s
  | started => exact beginAbort_writesAs _ _
  | notStarted => exact beginAbort_writesAs _ _
  | tooMany => exact beginAbort_writesAs _ _

theorem pollStdP6_writesAs (r : StdConfig) (wait : Word) (n : Nat) : WritesAs (.pollStd r wait) (pollStdP6 n) := by
  intro s t h
  unfold pollStdP6 at h
  split at h
  · cases h
    constructor <;> simp [isDataPlane, writesReq]
  · obtain ⟨v, -, h⟩ := orRangeFault_next h
    cases h
    constructor <;> simp [isDataPlane]
  · cases h
    constructor <;> simp
  · cases h
    constructor <;> simp [isDataPlane, writesReq]
  · split at h <;> cases h <;> constructor <;> simp [isDataPlane]
  · cases h

theorem pollStdEnds_wrote (r : StdConfig) (wait : Word) (rec : Option JoystickState) (s : State) :
    Wrote (.pollStd r wait) s (pollStdEnds rec s) := by
  cases rec with
  | none => constructor <;> simp [pollStdEnds, drawRecord, isDataPlane, writesOk]
  | some rec => constructor <;> simp [pollStdEnds, isDataPlane, writesOk]

theorem pollStdP7_writesAs (r : StdConfig) (wait : Word) (n : Nat) : WritesAs (.pollStd r wait) (pollStdP7 n) := by
  intro s t h
  unfold pollStdP7 at h
  split at h
  · cases h
    constructor <;> simp [isDataPlane, writesReq]
  · obtain ⟨rec, -, h⟩ := orRangeFault_next h
    cases h
    have hlow : Wrote (.pollStd r wait) s (pinWrite .dataOut false s) := by constructor <;> simp [isDataPlane]
    exact hlow.trans rfl (pollStdEnds_wrote r wait rec _)
  · cases h

theorem pollStdStep_writesAs (r : StdConfig) (wait : Word) :
    WritesAs (.pollStd r wait) (pollStdStep r wait) := by
  refine fun s t => orAbort_wrote rfl fun s t h => ?_
  split at h
  · -- P0
    cases h
    constructor <;> simp [isDataPlane, writesReq]
  · -- P1
    refine waitStep_wrote ?_ (fun s => beginAbort_writesAs _ _ s) h
    rintro s t ⟨⟩
    exact goto_wrote rfl _ _ _ s
  · -- P2, the frame deadline
    cases h
    constructor <;> simp [isDataPlane]
  · exact pollStdPulse_wrote (pollStdP2Done_writesAs r wait) h
  · exact pollStdSample_writesAs r wait _ _ h
  · exact pollStdPulse_wrote (pollStdP3Done_writesAs r wait) h
  · exact pollStdSample_writesAs r wait _ _ h
  · exact pollStdPulse_wrote (pollStdP4Done_writesAs r wait) h
  · -- P5
    refine waitStep_wrote ?_ (fun s => beginAbort_writesAs _ _ s) h
    rintro s t ⟨⟩
    exact goto_wrote rfl _ _ _ s
  · exact pollStdP6_writesAs r wait _ _ _ h
  · exact pollStdP6_writesAs r wait _ _ _ h
  · exact pollStdP7_writesAs r wait _ _ _ h
  · exact pollStdP7_writesAs r wait _ _ _ h
  · cases h

/-- A wait of SEND.STD inside a phase: only the place changes once the level is there. -/
theorem sendStdWait_wrote {st : JoystickState} {wait : Word} {s t : State} {v : Bool} {dl : Word} {pos : WaitPos}
    {place : WaitPos → Sub} {f : FrameFailure} {onward : Sub}
    (h : waitStep .ctlIn v dl pos place (fun s => .next { s with sub := onward })
      (fun s => beginAbort f s) s = .next t) :
    Wrote (.sendStd st wait) s t := by
  refine waitStep_wrote ?_ (fun s => beginAbort_writesAs _ _ s) h
  rintro s t ⟨⟩
  constructor <;> simp

theorem sendStdBit_writesAs (st : JoystickState) (wait : Word) : WritesAs (.sendStd st wait) sendStdBit := by
  intro s t h
  obtain ⟨v, -, h⟩ := orRangeFault_next h
  cases h
  constructor <;> simp [isDataPlane]

theorem pulseOut_wrote {st : JoystickState} {wait : Word} {s t : State} {width : Word} {place : Nat}
    {after : State → Out} (h : WritesAs (.sendStd st wait) after) (ht : pulseOut width place after s = .next t) :
    Wrote (.sendStd st wait) s t := by
  unfold pulseOut at ht
  split at ht
  · cases ht
    constructor <;> simp [isDataPlane]
  · cases ht
    constructor <;> simp
  · have hhigh : Wrote (.sendStd st wait) s (pinWrite .ctlOut true s) := by constructor <;> simp [isDataPlane]
    exact hhigh.trans rfl (h _ _ ht)
  · cases ht

theorem sendStdNextBit_writesAs (st : JoystickState) (wait : Word) : WritesAs (.sendStd st wait) sendStdNextBit := by
  intro s t h
  unfold sendStdNextBit at h
  split at h <;> cases h <;> constructor <;> simp [isDataPlane, writesReq]

theorem sendStdS5_writesAs (st : JoystickState) (wait : Word) (sub : Sub) :
    WritesAs (.sendStd st wait) (sendStdS5 sub) := by
  intro s t h
  unfold sendStdS5 at h
  split at h
  · exact sendStdWait_wrote h
  · exact sendStdWait_wrote h
  · obtain ⟨b, -, h⟩ := orRangeFault_next h
    split at h <;> cases h <;> constructor <;> simp [isDataPlane]
  · cases h

theorem sendStdStep_writesAs (st : JoystickState) (wait : Word) :
    WritesAs (.sendStd st wait) (sendStdStep st wait) := by
  refine fun s t => orAbort_wrote rfl fun s t h => ?_
  split at h
  · -- S0
    cases h
    constructor <;> simp [isDataPlane]
  · exact sendStdWait_wrote h
  · -- S1, the frame deadline
    cases h
    constructor <;> simp [isDataPlane, writesReq]
  · exact sendStdBit_writesAs st wait _ _ h
  · exact pulseOut_wrote (sendStdNextBit_writesAs st wait) h
  · exact sendStdWait_wrote h
  · exact sendStdBit_writesAs st wait _ _ h
  · exact pulseOut_wrote (sendStdNextBit_writesAs st wait) h
  · exact sendStdWait_wrote h
  · -- S4, the data line back at idle
    cases h
    constructor <;> simp [isDataPlane]
  · -- S4, the long pulse
    refine pulseOut_wrote ?_ h
    rintro s t ⟨⟩
    exact goto_wrote rfl _ _ _ s
  · exact sendStdS5_writesAs st wait _ _ _ h
  · -- S6
    refine waitStep_wrote ?_ (fun s => beginAbort_writesAs _ _ s) h
    rintro s t ⟨⟩
    exact goto_wrote rfl _ _ _ s
  · -- S7
    obtain ⟨r, -, h⟩ := orRangeFault_next h
    cases h
    constructor <;> simp [isDataPlane, writesOk]
  · cases h

/-! ## Setup, the waits of HOST's own, the callback -/

/-- A Setup writes the pins and `SETUP_DONE`; only one in the Std variant writes `REQ`, only the interrupt-counted one
touches the counter and the attachment (rules R183, R203, R204). -/
theorem setupStep_writesAs {i : Instr} {v : Variant} {level irq : Bool} (hi : isSetup i = true)
    (hreq : v = .std → writesReq i) (hirq : irq = true → i = .setupStdJc) : WritesAs i (setupStep v level irq) := by
  intro s t h
  have hends : ∀ s, Wrote i s (setupEnds v s) := by
    intro s
    constructor
    case req => cases v <;> simp [hreq]
    all_goals simp [hi]
  have hread : Wrote i s (pinMode (.inp .dataIn) .input s) := by constructor <;> simp [hi]
  unfold setupStep at h
  split at h
  · cases h
    constructor <;> simp [hi]
  · cases h
    constructor <;> simp [hi]
  · cases h
    constructor <;> simp [hi]
  · cases h
    constructor <;> simp [hi]
  · cases h
    constructor <;> simp [hi]
  · split at h <;> cases h
    · constructor <;> simp [hi]
    · exact hread.trans rfl (hends _)
  · split at h
    · cases h
    have hjc : i = .setupStdJc := hirq (by simpa using ‹¬(!irq) = true›)
    have hzero : Wrote i s { s with edgeCnt := 0, edgePending := 0 } := by constructor <;> simp [hjc]
    split at h <;> cases h
    · exact hzero.trans rfl (hends _)
    · constructor <;> simp [hjc]
  · split at h <;> cases h
    have hattach : Wrote i s (attachFalling s) := by constructor <;> simp [hirq ‹_›]
    exact hattach.trans rfl (hends _)
  · cases h

theorem waitPinStep_writesAs (p : InPin) (v : Bool) (dl : Word) :
    WritesAs (.waitPin p v dl) (waitPinStep p v dl) := by
  have ends : ∀ r, WritesAs (.waitPin p v dl) fun s => .next (finish r s) := by
    rintro r s t ⟨⟩
    constructor <;> simp
  intro s t h
  unfold waitPinStep at h
  split at h
  · exact waitStep_wrote (ends _) (ends _) h
  · exact waitStep_wrote (ends _) (ends _) h
  · cases h

theorem waitPulseStep_writesAs {i : Instr} {tr : Trigger} (hi : waitsForPulse i) (hreq : tr = .toggleReq → writesReq i)
    (w : Waiter) (dl : Word) : WritesAs i (waitPulseStep w dl tr) := by
  have ends : ∀ r, WritesAs i fun s => .next (finish (.pulse r) s) := by
    rintro r s t ⟨⟩
    constructor <;> simp
  intro s t h
  unfold waitPulseStep at h
  split at h
  · have hentry : Wrote i s { s with sub := pulseEntry w } := by constructor <;> simp
    exact hentry.trans rfl (pulseStep_wrote hi hreq ends h)
  · exact pulseStep_wrote hi hreq ends h

theorem execEdgeCb_writesAs : WritesAs .edgeCb execEdgeCb := by
  rintro s t ⟨⟩
  split <;> constructor <;> simp

/-! ## The operations of one step -/

/-- How an operation of one step ends. -/
inductive Ending where
  /-- An answer, with no primitive call. -/
  | answer (r : Result)
  /-- A decode: its record without its `ok`, and `OK`. -/
  | decoded (r : Bool → Result) (ok : Bool)
  /-- A decode of a Std JoystickState: the record, or none if the checksum is wrong. -/
  | decodedStd (r : Option JoystickState)
  /-- DEADLINE: one `clock_read`. -/
  | time (us : Word)
  /-- EXPIRED: one `clock_read`. -/
  | expiry (dl : Word)

/-- The state an ending leaves. -/
def Ending.apply (e : Ending) (s : State) : State :=
  match e with
  | .answer r => finish r s
  | .decoded r ok => finishDecode r ok s
  | .decodedStd r => finishStdDecode r s
  | .time us => finish (.time (deadlineAt s.now us)) (clockRead s)
  | .expiry dl => finish (.flag (expiredAt dl s.now)) (clockRead s)

/-- An ending that writes `OK`. -/
def Ending.setsOk (e : Ending) : Bool :=
  match e with
  | .decoded _ _ => true
  | .decodedStd _ => true
  | _ => false

/-- The operations that are one step, of either variant: the BitBuffer, the codecs, the wire words, DEADLINE and EXPIRED
(rule R103). -/
def isOneStep (i : Instr) : Bool :=
  match i with
  | .waitPin _ _ _ => false
  | .waitPulsePoll _ _ => false
  | .waitPulseIrq _ _ => false
  | .edgeCb => false
  | .peekPro => false
  | .peekStd => false
  | i => !isSetup i && !isDataPlane i

/-- `i` is one step: the configuration and the operands decide its ending, or the RangeFault. -/
def EndsInOneStep (i : Instr) : Prop :=
  ∃ value : Config → Except RangeInfo Ending,
    (∀ c e, value c = .ok e → e.setsOk = true → writesOk i = true) ∧
    ∀ s, exec i s = oneStep none i s fun s => orRangeFault (value s.cfg) fun e => .next (e.apply s)

theorem orRangeFault_map {α β : Type} (r : Except RangeInfo α) (f : α → β) (k : β → Out) :
    orRangeFault (r.map f) k = orRangeFault r fun v => k (f v) := by
  cases r <;> rfl

theorem endsInOneStep_of_value {α : Type} {i : Instr} (value : Config → Except RangeInfo α) (e : α → Ending)
    (hok : (∀ v, (e v).setsOk = false) ∨ writesOk i = true)
    (h : ∀ s, exec i s = oneStep none i s fun s => orRangeFault (value s.cfg) fun v => .next ((e v).apply s)) :
    EndsInOneStep i := by
  refine ⟨fun c => (value c).map e, fun c f hf hset => ?_, fun s => ?_⟩
  · cases hv : value c with
    | error _ => simp [hv, Except.map] at hf
    | ok v =>
      obtain rfl : e v = f := by simpa [hv, Except.map] using hf
      exact hok.resolve_left fun hno => by simp [hno] at hset
  · simp only [h, orRangeFault_map]

theorem endsInOneStep_of_ending {i : Instr} (e : Config → Ending)
    (hok : ∀ c, (e c).setsOk = false)
    (h : ∀ s, exec i s = oneStep none i s fun s => .next ((e s.cfg).apply s)) : EndsInOneStep i :=
  ⟨fun c => .ok (e c), fun c f hf => by cases hf; simp [hok], h⟩

theorem endsInOneStep {i : Instr} (hi : isOneStep i = true) : EndsInOneStep i := by
  cases i with
  | bbZero n => exact endsInOneStep_of_ending (fun _ => .answer (.buffer (zeros n))) (fun _ => rfl) fun _ => rfl
  | bbGetBit buf k =>
    exact endsInOneStep_of_value (fun _ => getBit buf k) (fun v => .answer (.bit v)) (.inl fun _ => rfl) fun _ => rfl
  | bbSetBit buf k v =>
    exact endsInOneStep_of_value (fun _ => setBit buf k (v.testBit 0)) (fun b => .answer (.buffer b))
      (.inl fun _ => rfl) fun _ => rfl
  | bbGetField buf start width =>
    exact endsInOneStep_of_value (fun _ => getField buf start width) (fun v => .answer (.value (BitVec.ofNat 32 v)))
      (.inl fun _ => rfl) fun _ => rfl
  | bbSetField buf start width v =>
    exact endsInOneStep_of_value (fun _ => setField buf start width v) (fun b => .answer (.buffer b))
      (.inl fun _ => rfl) fun _ => rfl
  | bbGetByte buf k =>
    exact endsInOneStep_of_value (fun _ => getByte buf k) (fun v => .answer (.byte v)) (.inl fun _ => rfl) fun _ => rfl
  | bbSetByte buf k v =>
    exact endsInOneStep_of_value (fun _ => setByte buf k (BitVec.ofNat 8 v)) (fun b => .answer (.buffer b))
      (.inl fun _ => rfl) fun _ => rfl
  | encProState rec =>
    exact endsInOneStep_of_ending (fun _ => .answer (.buffer (encProState rec))) (fun _ => rfl) fun _ => rfl
  | decProState buf =>
    exact endsInOneStep_of_value (fun c => decProState c buf) (fun r => .decoded (.state r) true) (.inr rfl)
      fun _ => rfl
  | encProCfg rec =>
    exact endsInOneStep_of_ending (fun c => .answer (.buffer (encProCfg c.ledCode rec))) (fun _ => rfl) fun _ => rfl
  | decProCfg buf =>
    exact endsInOneStep_of_value (fun c => decProCfg c.ledCode buf) (fun r => .decoded (.proConfig r) true)
      (.inr rfl) fun _ => rfl
  | encStdState rec =>
    exact endsInOneStep_of_ending (fun _ => .answer (.buffer (encStdState rec))) (fun _ => rfl) fun _ => rfl
  | decStdState buf =>
    exact endsInOneStep_of_value (fun c => decStdState c buf) .decodedStd (.inr rfl) fun _ => rfl
  | encStdCfg rec =>
    exact endsInOneStep_of_ending (fun _ => .answer (.buffer (encStdCfg rec))) (fun _ => rfl) fun _ => rfl
  | decStdCfg buf =>
    exact endsInOneStep_of_value (fun _ => decStdCfg buf) (fun r => .decoded (.stdConfig r) true) (.inr rfl)
      fun _ => rfl
  | checksum buf =>
    exact endsInOneStep_of_value (fun _ => checksumOf buf) (fun c => .answer (.byte c)) (.inl fun _ => rfl) fun _ => rfl
  | deadline us => exact endsInOneStep_of_ending (fun _ => .time us) (fun _ => rfl) fun _ => rfl
  | expired dl => exact endsInOneStep_of_ending (fun _ => .expiry dl) (fun _ => rfl) fun _ => rfl
  | wireProState w =>
    exact endsInOneStep_of_value (fun c => decProState c (bufferOfWord 56 w.toNat)) (fun r => .decoded (.state r) true)
      (.inr rfl) fun _ => rfl
  | wireProCfg w =>
    exact endsInOneStep_of_value (fun c => decProCfg c.ledCode (bufferOfWord 19 w.toNat))
      (fun r => .decoded (.proConfig r) true) (.inr rfl) fun _ => rfl
  | wireStdState w =>
    exact endsInOneStep_of_value (fun c => decStdState c (bufferOfWord 64 w.toNat)) .decodedStd (.inr rfl)
      fun _ => rfl
  | wireStdCfg w =>
    exact endsInOneStep_of_value (fun _ => decStdCfg (bufferOfWord 8 w.toNat)) (fun r => .decoded (.stdConfig r) true)
      (.inr rfl) fun _ => rfl
  | _ => simp [isOneStep, isSetup, isDataPlane] at hi

/-- What an operation of one step can do: it is turned away, or it ends. -/
theorem exec_oneStep_next {i : Instr} {s t : State} (hi : isOneStep i = true) (h : exec i s = .next t) :
    (∃ w, t = turnAway w s) ∨
      s.cur = none ∧ ∃ e : Ending, (e.setsOk = true → writesOk i = true) ∧ t = e.apply (launch i s) := by
  obtain ⟨value, hok, heq⟩ := endsInOneStep hi
  rw [heq] at h
  rcases oneStep_next h with ⟨-, rfl⟩ | ⟨-, w, -, rfl⟩ | ⟨hcur, -, h⟩
  · exact .inl ⟨_, rfl⟩
  · exact .inl ⟨w, rfl⟩
  · obtain ⟨e, he, h⟩ := orRangeFault_next h
    cases h
    exact .inr ⟨hcur, e, hok _ e he, rfl⟩

theorem Ending.apply_wrote {i : Instr} (e : Ending) (h : e.setsOk = true → writesOk i = true) (s : State) :
    Wrote i s (e.apply s) := by
  cases e with
  | answer r => constructor <;> simp [Ending.apply]
  | decoded r ok => constructor <;> simp [Ending.apply, h rfl]
  | decodedStd r =>
    cases r with
    | none => constructor <;> simp [Ending.apply, finishStdDecode, drawRecord, h rfl]
    | some rec => constructor <;> simp [Ending.apply, finishStdDecode, h rfl]
  | time us => constructor <;> simp [Ending.apply]
  | expiry dl => constructor <;> simp [Ending.apply]

theorem exec_oneStep_wrote {i : Instr} {s t : State} (hi : isOneStep i = true) (h : exec i s = .next t) :
    Wrote i s t := by
  rcases exec_oneStep_next hi h with ⟨w, rfl⟩ | ⟨-, e, he, rfl⟩
  · exact wrote_turnAway i w s
  · exact (wrote_launch i s).trans rfl (e.apply_wrote he _)

theorem execPeekStd_wrote {s t : State} (h : execPeekStd s = .next t) : Wrote .peekStd s t := by
  refine oneStep_wrote ?_ h
  rintro s t ⟨⟩
  constructor <;> simp

/-! ## Every operation -/

/-- Every operation writes only what it may write. -/
theorem exec_wrote {i : Instr} {s t : State} (h : exec i s = .next t) : Wrote i s t := by
  cases i with
  | waitPin p v dl => exact running_wrote (r := none) (waitPinStep_writesAs p v dl) h
  | waitPulsePoll dl tr =>
    refine running_wrote (waitPulseStep_writesAs (.inl ⟨dl, tr, rfl⟩) ?_ _ _) h
    rintro rfl
    exact .inr (.inr (.inr (.inr (.inl ⟨dl, rfl⟩))))
  | waitPulseIrq dl tr =>
    refine running_wrote (waitPulseStep_writesAs (.inr (.inl ⟨dl, tr, rfl⟩)) ?_ _ _) h
    rintro rfl
    exact .inr (.inr (.inr (.inr (.inr ⟨dl, rfl⟩))))
  | edgeCb => exact execEdgeCb_writesAs s t h
  | setupProJc => exact running_wrote (setupStep_writesAs (v := .pro) (irq := false) rfl (by simp) (by simp)) h
  | setupProTc => exact running_wrote (setupStep_writesAs (v := .pro) (irq := false) rfl (by simp) (by simp)) h
  | pollPro r wait => exact running_wrote (pollProStep_writesAs r wait) h
  | sendPro st wait => exact running_wrote (sendProStep_writesAs st wait) h
  | peekPro => exact running_wrote peekProStep_writesAs h
  | setupStdJc => exact running_wrote (setupStep_writesAs rfl (fun _ => .inl rfl) (fun _ => rfl)) h
  | setupStdTc => exact running_wrote (setupStep_writesAs rfl (fun _ => .inr (.inl rfl)) (by simp)) h
  | pollStd r wait => exact running_wrote (pollStdStep_writesAs r wait) h
  | sendStd st wait => exact running_wrote (sendStdStep_writesAs st wait) h
  | peekStd => exact execPeekStd_wrote h
  | _ => exact exec_oneStep_wrote rfl h

/-- Settles O53: `exec_wrote`, clause by clause. -/
theorem eachElementHasItsWriters : Obligations.EachElementHasItsWriters := by
  intro i s t h
  have w := exec_wrote h
  exact ⟨w.cfg, w.now, w.wCtlIn, w.wDataIn, w.args, w.inputs, w.setupDone, w.dirs, w.edges, w.attached, w.position, w.ok,
    w.req, w.lastRead, w.history, w.frame, w.outState, w.outProCfg, w.outStdCfg, w.pulse, w.outCtl, w.outData⟩

end Sys2Proof.Machine
end

section
/-! What a step of a data-plane operation can do: it stays at a place of the operation, with the line levels that place
has, or it returns with idle outputs. The invariant (O50) and the state at a return (O52) rest on it. -/

namespace Sys2Proof.Machine
open Sys2Proof.Claims

/-! ## What the shared waits leave -/

/-- A step of `WaitPin` goes on as `reached` or `isExpired` says, or stays in the wait. -/
theorem waitStep_elim {p : InPin} {v : Bool} {dl : Word} {pos : WaitPos} {place : WaitPos → Sub}
    {reached isExpired : State → Out} {s t : State} {G : State → Prop}
    (h : waitStep p v dl pos place reached isExpired s = .next t)
    (hreached : ∀ cs, reached { s with calls := cs } = .next t → G t)
    (hexpired : ∀ cs l, isExpired { s with calls := cs, lastRead := l } = .next t → G t)
    (hstays : ∀ cs l d q, G { s with calls := cs, lastRead := l, delayLeft := d, sub := place q }) : G t := by
  rcases waitStep_next h with ⟨-, -, h⟩ | ⟨-, -, rfl⟩ | ⟨-, -, h⟩ | ⟨-, -, rfl⟩ | ⟨-, rfl⟩
  · exact hreached _ h
  · exact hstays _ _ _ _
  · exact hexpired _ _ h
  · exact hstays _ _ _ _
  · exact hstays _ _ _ _

theorem pulsePlace_afterTrigger (w : Waiter) : pulsePlace w (afterTrigger w) = true := by cases w <;> rfl
theorem pulsePlace_pulseEntry (w : Waiter) : pulsePlace w (pulseEntry w) = true := by cases w <;> rfl

/-- A step of `WaitForPulse` has its result, runs its trigger, or stays at one of its places. -/
theorem pulseStep_elim {w : Waiter} {dl : Word} {tr : Trigger} {done : PulseResult → State → Out} {s t : State}
    {G : State → Prop} (h : pulseStep w dl tr done s = .next t)
    (hdone : ∀ cs l r, done r { s with calls := cs, lastRead := l, pwResult := r } = .next t → G t)
    (htrigger : G { runTrigger tr s with sub := afterTrigger w })
    (hstays : ∀ cs l d b sub, pulsePlace w sub = true →
      G { s with calls := cs, lastRead := l, delayLeft := d, baseCnt := b, sub := sub }) : G t := by
  rcases pulseStep_next h with ⟨-, rfl, rfl⟩ | ⟨-, rfl⟩ | ⟨rfl, pos, -, h⟩ | ⟨rfl, pos, -, h⟩ | ⟨rfl, pos, -, h⟩
  · exact hstays _ _ _ _ _ rfl
  · exact htrigger
  · refine waitStep_elim h ?_ (fun cs l => hdone cs l _) (fun cs l d q => hstays cs l d s.baseCnt (.first q) rfl)
    rintro cs ⟨⟩
    exact hstays _ _ _ _ _ rfl
  · exact waitStep_elim h (fun cs => hdone cs s.lastRead _) (fun cs l => hdone cs l _)
      (fun cs l d q => hstays cs l d s.baseCnt (.second q) rfl)
  · rcases countStep_next h with ⟨-, -, rfl⟩ | ⟨-, -, h⟩ | ⟨-, -, -, h⟩ | ⟨-, -, rfl⟩ | ⟨-, -, rfl⟩ | ⟨-, h⟩ | ⟨-, rfl⟩
    · exact hstays _ _ _ _ _ rfl
    · exact hdone _ _ _ h
    · exact hdone _ _ _ h
    · exact hstays _ _ _ _ _ rfl
    · exact hstays _ _ _ _ _ rfl
    · exact hdone _ _ _ h
    · exact hstays _ _ _ _ _ rfl

/-! ## A step of a data-plane operation -/

/-- The operation goes on, at one of its places. -/
structure FrameStays (place : State → Bool) (s t : State) : Prop where
  cur : t.cur = s.cur
  cyc : t.cyc.toNat ≤ 75
  buffers : buffersOk t = true
  place : place t = true

/-- The operation returns: at rest, with idle outputs, and with `ERR` as its answer (rules R188, R232). -/
structure FrameReturns (s t : State) : Prop where
  rest : t.atRest = true
  buffers : buffersOk t = true
  idle : outputsIdle t = true
  result : t.result = .code t.err
  history : ∃ rec, t.history = ⟨.code t.err, rec⟩ :: s.history ∧ (rec ≠ .nothing → t.err = 0)

/-- What a step of a data-plane operation with these places can do. -/
def FrameStep (place : State → Bool) (s t : State) : Prop := FrameStays place s t ∨ FrameReturns s t

theorem finishFrame_returns {s u : State} {rec : OutRecord} (hb : buffersOk u = true) (hidle : outputsIdle u = true)
    (hist : u.history = s.history) : FrameReturns s (finishFrame rec u) := by
  constructor
  case rest => simp [State.atRest, atIdle]
  case buffers => simpa [buffersOk] using hb
  case idle => simpa [outputsIdle] using hidle
  case result => simp
  case history => exact ⟨rec, by simp [hist], by simp⟩

theorem finishCode_returns {s u : State} {code : Word} (hb : buffersOk u = true) (hidle : outputsIdle u = true)
    (hist : u.history = s.history) : FrameReturns s (finishCode code u) := by
  constructor
  case rest => simp [State.atRest, atIdle]
  case buffers => exact hb
  case idle => exact hidle
  case result => simp
  case history => exact ⟨.nothing, by simp [hist], by simp⟩

/-- The two writes of `abort` keep the operation at a place of it and then return it at idle (rule R232). -/
theorem orAbort_frameStep {place : State → Bool} {s t : State} {own : State → Out} (hcyc : s.cyc.toNat ≤ 75)
    (hb : buffersOk s = true)
    (hctl : ∀ code code', s.sub = .abortCtl code →
      place { pinWrite .ctlOut (idleCtl s.cfg) s with sub := .abortData code' } = true)
    (hdata : ∀ code, s.sub = .abortData code → s.outCtl = idleCtl s.cfg)
    (hown : (∀ code, s.sub ≠ .abortCtl code) → (∀ code, s.sub ≠ .abortData code) → own s = .next t →
      FrameStep place s t) (h : orAbort s own = .next t) : FrameStep place s t := by
  rcases orAbort_next h with ⟨code, hsub, rfl⟩ | ⟨code, hsub, rfl⟩ | ⟨hctl', hdata', h⟩
  · exact .inl ⟨rfl, hcyc, hb, hctl code code hsub⟩
  · refine .inr (finishCode_returns hb ?_ rfl)
    simp [outputsIdle, hdata code hsub]
  · exact hown hctl' hdata' h

theorem buffersOk_iff (s : State) : buffersOk s = true ↔
    s.txbuf.wf = true ∧ s.rxbuf.wf = true ∧ s.txbuf.N = txWidth s.cfg ∧ s.rxbuf.N = rxWidth s.cfg := by
  simp [buffersOk, and_assoc]

/-- Storing a received bit keeps the form and the width of `RXBUF`. -/
theorem buffersOk_setBit {s : State} {b : BitBuffer} {i : Int} {v : Bool} (hb : buffersOk s = true)
    (h : setBit s.rxbuf i v = .ok b) : buffersOk { s with rxbuf := b } = true := by
  obtain ⟨htx, hrx, hntx, hnrx⟩ := (buffersOk_iff s).mp hb
  obtain ⟨hwf, hN⟩ := setBit_wf h
  exact (buffersOk_iff _).mpr ⟨htx, hwf.trans hrx, hntx, hN.trans hnrx⟩

/-! ## SEND.PRO -/

theorem sendProPlace_abortCtl {s : State} {code : Word} (h : s.sub = .abortCtl code) :
    sendProPlace s = decide (s.phase ≠ .idle) := by
  cases hp : s.phase <;> simp [sendProPlace, hp, h]

theorem sendProPlace_abortData {s : State} {code : Word} (h : s.sub = .abortData code) :
    sendProPlace s = (decide (s.phase ≠ .idle) && !s.outCtl) := by
  cases hp : s.phase <;> simp [sendProPlace, hp, h]

theorem beginAbort_stays {place : State → Bool} {s u t : State} {f : FrameFailure} (h : beginAbort f u = .next t)
    (hcur : u.cur = s.cur) (hcyc : u.cyc.toNat ≤ 75) (hb : buffersOk u = true)
    (hp : place { u with sub := .abortCtl (failureCode f u.cfg), failure := some f } = true) : FrameStep place s t := by
  cases h
  exact .inl ⟨hcur, hcyc, hb, hp⟩

theorem idleCtl_pro {c : Config} {r : Role} (h : isInstance c .pro r = true) : idleCtl c = false := by
  simp_all [isInstance, idleCtl]

theorem cyc_succ_toNat {c : BitVec 7} (h : c.toNat < 75) : (c + 1).toNat = c.toNat + 1 := by bv_omega

/-- The end of a Pro cycle is a place of both operations if the next cycle's entry and DONE are (rules R181, R182). -/
theorem proNextCycle_stays {place : State → Bool} {s u t : State} {entry : Sub} (h : proNextCycle entry u = .next t)
    (hcur : u.cur = s.cur) (hcyc : u.cyc.toNat ≤ 75) (hb : buffersOk u = true)
    (hentry : place (goto .a (u.cyc + 1) entry u) = true)
    (hdone : u.cyc = 75 → place (goto .done u.cyc .start u) = true) : FrameStep place s t := by
  unfold proNextCycle at h
  split at h
  case isTrue hlt =>
    cases h
    refine .inl ⟨hcur, ?_, hb, hentry⟩
    simp only [goto_cyc, cyc_succ_toNat hlt]
    omega
  case isFalse hge =>
    cases h
    exact .inl ⟨hcur, hcyc, hb, hdone (by bv_omega)⟩

theorem sendProStep_frameStep {st : JoystickState} {wait : Word} {s t : State}
    (hc : isInstance s.cfg .pro .throttleClient = true) (hcyc : s.cyc.toNat ≤ 75) (hb : buffersOk s = true)
    (hp : sendProPlace s = true) (h : sendProStep st wait s = .next t) : FrameStep sendProPlace s t := by
  refine orAbort_frameStep hcyc hb ?_ ?_ (fun _ _ h => ?_) h
  · intro code code' hsub
    rw [sendProPlace_abortData rfl]
    rw [sendProPlace_abortCtl hsub] at hp
    simpa [idleCtl_pro hc] using hp
  · intro code hsub
    rw [sendProPlace_abortData hsub] at hp
    simp_all [idleCtl_pro hc]
  split at h
  case h_1 hph hsub => simp [sendProPlace, hph] at hp
  case h_2 hph hsub => -- A
    have hlow : s.outCtl = false := by simpa [sendProPlace, hph, hsub] using hp
    unfold sendProA at h
    split at h
    · obtain ⟨v, -, h⟩ := orRangeFault_next h
      cases h
      exact .inl ⟨rfl, hcyc, hb, by simp [sendProPlace, hlow]⟩
    · cases h
      exact .inl ⟨rfl, hcyc, hb, by simp [sendProPlace, hlow]⟩
  case h_3 => -- B
    cases h
    exact .inl ⟨rfl, hcyc, hb, by simp [sendProPlace]⟩
  case h_4 pos hph hsub => -- C
    have hhigh : s.outCtl = true := by simpa [sendProPlace, hph, hsub] using hp
    refine waitStep_elim h ?_ ?_ ?_
    · rintro cs ⟨⟩
      exact .inl ⟨rfl, hcyc, hb, hhigh⟩
    · intro cs l h
      exact beginAbort_stays h rfl hcyc hb (by simp [sendProPlace, hph])
    · intro cs l d q
      exact .inl ⟨rfl, hcyc, hb, by simp [sendProPlace, hph, hhigh]⟩
  case h_5 hph hsub => -- D
    have hhigh : s.outCtl = true := by simpa [sendProPlace, hph, hsub] using hp
    have habort : ∀ f, beginAbort f (pinRead .dataIn s) = .next t → FrameStep sendProPlace s t := fun f h =>
      beginAbort_stays h rfl hcyc hb (by simp [sendProPlace, hph])
    unfold sendProD at h
    split at h
    · exact habort _ h
    split at h
    · exact habort _ h
    split at h
    · obtain ⟨b, hbit, h⟩ := orRangeFault_next h
      cases h
      have hb' := buffersOk_setBit hb hbit
      exact .inl ⟨rfl, hcyc, hb', hhigh⟩
    · cases h
      exact .inl ⟨rfl, hcyc, hb, hhigh⟩
  case h_6 => -- E
    cases h
    exact .inl ⟨rfl, hcyc, hb, by simp [sendProPlace]⟩
  case h_7 pos hph hsub => -- F, the wait
    have hlow : s.outCtl = false := by simpa [sendProPlace, hph, hsub] using hp
    refine waitStep_elim h ?_ ?_ ?_
    · intro cs h
      dsimp only at h
      split at h
      case isTrue hzero =>
        cases h
        exact .inl ⟨rfl, hcyc, hb, by simp [sendProPlace, hlow, hzero]⟩
      case isFalse =>
        exact proNextCycle_stays h rfl hcyc hb (by simp [sendProPlace, hlow])
          (fun hend => by simpa [sendProPlace, hlow] using hend)
    · intro cs l h
      exact beginAbort_stays h rfl hcyc hb (by simp [sendProPlace, hph])
    · intro cs l d q
      exact .inl ⟨rfl, hcyc, hb, by simp [sendProPlace, hph, hlow]⟩
  case h_8 hph hsub => -- F, the frame deadline
    have hlow : s.outCtl = false := by simp_all [sendProPlace]
    exact proNextCycle_stays h rfl hcyc hb (by simp [sendProPlace, hlow]) (fun hend => by simp_all [sendProPlace])
  case h_9 hph hsub => -- DONE
    have hlow : s.outCtl = false := by simp_all [sendProPlace]
    obtain ⟨r, -, h⟩ := orRangeFault_next h
    cases h
    refine .inr (finishFrame_returns hb ?_ rfl)
    simp [outputsIdle, hlow, idleCtl_pro hc]
  case h_10 => cases h

/-- SEND.PRO starts at its first place, with the buffers of its frame (rule R181). -/
theorem sendProStep_start {st : JoystickState} {wait : Word} {s t : State}
    (hc : isInstance s.cfg .pro .throttleClient = true) (hlow : s.outCtl = false)
    (h : sendProStep st wait (launch (.sendPro st wait) s) = .next t) :
    FrameStays sendProPlace (launch (.sendPro st wait) s) t := by
  obtain ⟨hv, hr⟩ : s.cfg.variant = .pro ∧ s.cfg.role = .throttleClient := by simpa [isInstance] using hc
  cases h
  refine ⟨rfl, by simp, ?_, by simp [sendProPlace, hlow]⟩
  simp [buffersOk, zeros_wf, txWidth, rxWidth, hv, hr]

/-! ## POLL.PRO -/

theorem pollProPlace_abortCtl {s : State} {code : Word} (h : s.sub = .abortCtl code) :
    pollProPlace s = decide (s.phase ≠ .idle) := by
  cases hp : s.phase <;> simp [pollProPlace, hp, h]

theorem pollProPlace_abortData {s : State} {code : Word} (h : s.sub = .abortData code) :
    pollProPlace s = (decide (s.phase ≠ .idle) && !s.outCtl) := by
  cases hp : s.phase <;> simp [pollProPlace, hp, h]

theorem pollProStep_frameStep {r : ProConfig} {wait : Word} {s t : State}
    (hc : isInstance s.cfg .pro .joystickClient = true) (hcyc : s.cyc.toNat ≤ 75) (hb : buffersOk s = true)
    (hp : pollProPlace s = true) (h : pollProStep r wait s = .next t) : FrameStep pollProPlace s t := by
  refine orAbort_frameStep hcyc hb ?_ ?_ (fun _ _ h => ?_) h
  · intro code code' hsub
    rw [pollProPlace_abortData rfl]
    rw [pollProPlace_abortCtl hsub] at hp
    simpa [idleCtl_pro hc] using hp
  · intro code hsub
    rw [pollProPlace_abortData hsub] at hp
    simp_all [idleCtl_pro hc]
  split at h
  case h_1 hph hsub => simp [pollProPlace, hph] at hp
  case h_2 pos hph hsub => -- A
    have hlow : s.outCtl = false := by simpa [pollProPlace, hph, hsub] using hp
    refine waitStep_elim h ?_ ?_ ?_
    · rintro cs ⟨⟩
      exact .inl ⟨rfl, hcyc, hb, by simp [pollProPlace, hlow]⟩
    · intro cs l h
      exact beginAbort_stays h rfl hcyc hb (by simp [pollProPlace, hph])
    · intro cs l d q
      exact .inl ⟨rfl, hcyc, hb, by simp [pollProPlace, hph, hlow]⟩
  case h_3 hph hsub => -- B
    have hlow : s.outCtl = false := by simpa [pollProPlace, hph, hsub] using hp
    unfold pollProB at h
    split at h
    · obtain ⟨b, hbit, h⟩ := orRangeFault_next h
      cases h
      have hb' := buffersOk_setBit hb hbit
      exact .inl ⟨rfl, hcyc, hb', by simp [pollProPlace, hlow]⟩
    · cases h
      exact .inl ⟨rfl, hcyc, hb, by simp [pollProPlace, hlow]⟩
  case h_4 hph hsub => -- C
    have hlow : s.outCtl = false := by simpa [pollProPlace, hph, hsub] using hp
    unfold pollProC at h
    split at h
    · obtain ⟨v, -, h⟩ := orRangeFault_next h
      cases h
      exact .inl ⟨rfl, hcyc, hb, by simp [pollProPlace, hlow]⟩
    · cases h
      exact .inl ⟨rfl, hcyc, hb, by simp [pollProPlace, hlow]⟩
  case h_5 => -- D
    cases h
    exact .inl ⟨rfl, hcyc, hb, by simp [pollProPlace]⟩
  case h_6 pos hph hsub => -- E
    have hhigh : s.outCtl = true := by simpa [pollProPlace, hph, hsub] using hp
    refine waitStep_elim h ?_ ?_ ?_
    · rintro cs ⟨⟩
      exact .inl ⟨rfl, hcyc, hb, hhigh⟩
    · intro cs l h
      exact beginAbort_stays h rfl hcyc hb (by simp [pollProPlace, hph])
    · intro cs l d q
      exact .inl ⟨rfl, hcyc, hb, by simp [pollProPlace, hph, hhigh]⟩
  case h_7 => -- F
    unfold pollProF at h
    split at h
    case isTrue hzero =>
      cases h
      exact .inl ⟨rfl, hcyc, hb, by simp [pollProPlace, hzero]⟩
    case isFalse =>
      exact proNextCycle_stays h rfl hcyc hb (by simp [pollProPlace])
        (fun hend => by simpa [pollProPlace] using hend)
  case h_8 hph hsub => -- F, the frame deadline
    have hlow : s.outCtl = false := by simp_all [pollProPlace]
    exact proNextCycle_stays h rfl hcyc hb (by simp [pollProPlace, hlow])
      (fun hend => by simpa [pollProPlace, hlow] using hend)
  case h_9 hph hsub => -- DONE
    have hlow : s.outCtl = false := by simp_all [pollProPlace]
    obtain ⟨r, -, h⟩ := orRangeFault_next h
    cases h
    refine .inr (finishFrame_returns hb ?_ rfl)
    simp [outputsIdle, hlow, idleCtl_pro hc]
  case h_10 => cases h

/-- POLL.PRO starts at its first place, with the buffers of its frame (rule R182). -/
theorem pollProStep_start {r : ProConfig} {wait : Word} {s t : State}
    (hc : isInstance s.cfg .pro .joystickClient = true) (hlow : s.outCtl = false)
    (h : pollProStep r wait (launch (.pollPro r wait) s) = .next t) :
    FrameStays pollProPlace (launch (.pollPro r wait) s) t := by
  obtain ⟨hv, hr⟩ : s.cfg.variant = .pro ∧ s.cfg.role = .joystickClient := by simpa [isInstance] using hc
  cases h
  refine ⟨rfl, by simp, ?_, by simp [pollProPlace, hlow]⟩
  simp [buffersOk, zeros_wf, txWidth, rxWidth, hv, hr]

/-! ## POLL.STD -/

theorem pollStdPlace_abortCtl {s : State} {code : Word} (h : s.sub = .abortCtl code) :
    pollStdPlace s = decide (s.phase ≠ .idle) := by
  cases hp : s.phase <;> simp [pollStdPlace, hp, h]

theorem pollStdPlace_abortData {s : State} {code : Word} (h : s.sub = .abortData code) :
    pollStdPlace s = (decide (s.phase ≠ .idle) && !s.outCtl) := by
  cases hp : s.phase <;> simp [pollStdPlace, hp, h]

theorem idleCtl_stdJc {c : Config} (h : isInstance c .std .joystickClient = true) : idleCtl c = false := by
  simp_all [isInstance, idleCtl]

/-- The phases of POLL.STD with a `WaitForPulse`, each with its cycles. -/
def pulsePhase (p : Phase) (c : BitVec 7) : Bool :=
  match p with
  | .p2 => true
  | .p3 => decide (c.toNat ≤ 62)
  | .p4 => decide (c = 63)
  | _ => false

/-- Inside a `WaitForPulse` POLL.STD is at a place of it, with the data line low. -/
theorem pollStdPlace_of_pulse {s : State} (hsub : pulsePlace s.cfg.waiter s.sub = true)
    (hph : pulsePhase s.phase s.cyc = true) (hdata : s.outData = false) : pollStdPlace s = true := by
  cases hp : s.phase <;> simp [hp, pulsePhase] at hph
  all_goals cases hs : s.sub <;> simp_all [pollStdPlace, pulsePlace]

theorem pulsePhase_of_pollStdPlace {s : State} (hp : pollStdPlace s = true)
    (hph : s.phase = .p2 ∨ s.phase = .p3 ∨ s.phase = .p4) (hctl : ∀ code, s.sub ≠ .abortCtl code)
    (hdata : ∀ code, s.sub ≠ .abortData code) : pulsePhase s.phase s.cyc = true ∧ s.outData = false := by
  rcases hph with hph | hph | hph
  all_goals cases hs : s.sub <;> simp_all [pollStdPlace, pulsePhase]

/-- A step of the `WaitForPulse` of a phase: its result, or another place of it. -/
theorem pollStdPulse_frameStep {s t : State} {done : PulseResult → State → Out} (hcyc : s.cyc.toNat ≤ 75)
    (hb : buffersOk s = true) (hph : pulsePhase s.phase s.cyc = true) (hdata : s.outData = false)
    (hdone : ∀ cs l r, done r { s with calls := cs, lastRead := l, pwResult := r } = .next t →
      FrameStep pollStdPlace s t)
    (h : pulseStep s.cfg.waiter s.dl .toggleReq done s = .next t) : FrameStep pollStdPlace s t := by
  refine pulseStep_elim h hdone ?_ ?_
  · exact .inl ⟨rfl, hcyc, hb, pollStdPlace_of_pulse (pulsePlace_afterTrigger _) hph hdata⟩
  · intro cs l d b sub hsub
    exact .inl ⟨rfl, hcyc, hb, pollStdPlace_of_pulse hsub hph hdata⟩

theorem pollStdSample_frameStep {s t : State} (hcyc : s.cyc.toNat ≤ 75) (hb : buffersOk s = true)
    (hph : pulsePhase s.phase s.cyc = true) (hdata : s.outData = false) (h : pollStdSample s = .next t) :
    FrameStep pollStdPlace s t := by
  obtain ⟨b, hbit, h⟩ := orRangeFault_next h
  cases h
  have hb' := buffersOk_setBit hb hbit
  exact .inl ⟨rfl, hcyc, hb', pollStdPlace_of_pulse (pulsePlace_pulseEntry _) hph hdata⟩

theorem pollStdP6_frameStep {s t : State} {n : Nat} (hcyc : s.cyc.toNat ≤ 7) (hb : buffersOk s = true)
    (hph : s.phase = .p6) (h : pollStdP6 n s = .next t) : FrameStep pollStdPlace s t := by
  have hcyc' : s.cyc.toNat ≤ 75 := by omega
  unfold pollStdP6 at h
  split at h
  · cases h
    exact .inl ⟨rfl, hcyc', hb, by simp [pollStdPlace, hph, hcyc]⟩
  · obtain ⟨v, -, h⟩ := orRangeFault_next h
    cases h
    exact .inl ⟨rfl, hcyc', hb, by simp [pollStdPlace, hph, hcyc]⟩
  · cases h
    exact .inl ⟨rfl, hcyc', hb, by simp [pollStdPlace, hph, hcyc]⟩
  · cases h
    exact .inl ⟨rfl, hcyc', hb, by simp [pollStdPlace, hph, hcyc]⟩
  · split at h
    case isTrue hlt =>
      cases h
      have hsucc := cyc_succ_toNat (c := s.cyc) (by omega)
      exact .inl ⟨rfl, by simp only [goto_cyc]; omega, hb, by simp [pollStdPlace]; omega⟩
    case isFalse hge =>
      cases h
      have hend : s.cyc = 7 := by bv_omega
      exact .inl ⟨rfl, hcyc', hb, by simp [pollStdPlace, hend]⟩
  · cases h

/-- The end of POLL.STD, with the record or after a checksum failure (rules R209, R225). -/
theorem pollStdEnds_returns {s u : State} (rec : Option JoystickState) (hb : buffersOk u = true)
    (hidle : outputsIdle u = true) (hist : u.history = s.history) : FrameReturns s (pollStdEnds rec u) := by
  cases rec with
  | none => exact finishCode_returns hb hidle hist
  | some rec => exact finishFrame_returns hb hidle hist

theorem pollStdP7_frameStep {s t : State} {n : Nat} (hc : isInstance s.cfg .std .joystickClient = true)
    (hcyc : s.cyc = 7) (hb : buffersOk s = true) (hph : s.phase = .p7) (hn : n = 0 ∨ s.outCtl = false)
    (h : pollStdP7 n s = .next t) : FrameStep pollStdPlace s t := by
  unfold pollStdP7 at h
  split at h
  · cases h
    exact .inl ⟨rfl, by simp [hcyc], hb, by simp [pollStdPlace, hph, hcyc]⟩
  · obtain ⟨rec, -, h⟩ := orRangeFault_next h
    cases h
    have hlow : s.outCtl = false := by simpa using hn
    exact .inr (pollStdEnds_returns rec hb (by simp [outputsIdle, hlow, idleCtl_stdJc hc]) rfl)
  · cases h

theorem pollStdStep_frameStep {r : StdConfig} {wait : Word} {s t : State}
    (hc : isInstance s.cfg .std .joystickClient = true) (hcyc : s.cyc.toNat ≤ 75) (hb : buffersOk s = true)
    (hp : pollStdPlace s = true) (h : pollStdStep r wait s = .next t) : FrameStep pollStdPlace s t := by
  refine orAbort_frameStep hcyc hb ?_ ?_ (fun hctl hdata h => ?_) h
  · intro code code' hsub
    rw [pollStdPlace_abortData rfl]
    rw [pollStdPlace_abortCtl hsub] at hp
    simpa [idleCtl_stdJc hc] using hp
  · intro code hsub
    rw [pollStdPlace_abortData hsub] at hp
    simp_all [idleCtl_stdJc hc]
  split at h
  case h_1 hph hsub => simp [pollStdPlace, hph] at hp
  case h_2 pos hph hsub => -- P1
    have hlow : s.outData = false := by simpa [pollStdPlace, hph, hsub] using hp
    refine waitStep_elim h ?_ ?_ ?_
    · rintro cs ⟨⟩
      exact .inl ⟨rfl, by simp, hb, pollStdPlace_of_pulse (pulsePlace_pulseEntry _) rfl hlow⟩
    · intro cs l h
      exact beginAbort_stays h rfl hcyc hb (by simp [pollStdPlace, hph])
    · intro cs l d q
      exact .inl ⟨rfl, hcyc, hb, by simp [pollStdPlace, hph, hlow]⟩
  case h_3 hph hsub => -- P2, the frame deadline
    have hlow : s.outData = false := by simpa [pollStdPlace, hph, hsub] using hp
    cases h
    exact .inl ⟨rfl, by simp, hb, by simp [pollStdPlace, hlow]⟩
  case h_4 hph _ => -- P2
    obtain ⟨hph', hlow⟩ := pulsePhase_of_pollStdPlace hp (by simp [hph]) hctl hdata
    refine pollStdPulse_frameStep hcyc hb hph' hlow (fun cs l r h => ?_) h
    cases r with
    | finished =>
      cases h
      exact .inl ⟨rfl, hcyc, hb, by simp [pollStdPlace, hph, hlow]⟩
    | started => exact beginAbort_stays h rfl hcyc hb (by simp [pollStdPlace, hph])
    | notStarted => exact beginAbort_stays h rfl hcyc hb (by simp [pollStdPlace, hph])
    | tooMany => exact beginAbort_stays h rfl hcyc hb (by simp [pollStdPlace, hph])
  case h_5 hph hsub => -- P3, the sample
    obtain ⟨hph', hlow⟩ := pulsePhase_of_pollStdPlace hp (by simp [hph]) hctl hdata
    exact pollStdSample_frameStep hcyc hb hph' hlow h
  case h_6 hph _ => -- P3
    obtain ⟨hph', hlow⟩ := pulsePhase_of_pollStdPlace hp (by simp [hph]) hctl hdata
    refine pollStdPulse_frameStep hcyc hb hph' hlow (fun cs l r h => ?_) h
    cases r with
    | finished =>
      simp only [pollStdP3Done] at h
      split at h
      case isTrue hlt =>
        cases h
        have hsucc := cyc_succ_toNat (c := s.cyc) (by omega)
        exact .inl ⟨rfl, by simp only [goto_cyc]; omega, hb, by simp [pollStdPlace, hlow]; omega⟩
      case isFalse =>
        cases h
        exact .inl ⟨rfl, by simp, hb, by simp [pollStdPlace, hlow]⟩
    | started => exact beginAbort_stays h rfl hcyc hb (by simp [pollStdPlace, hph])
    | notStarted => exact beginAbort_stays h rfl hcyc hb (by simp [pollStdPlace, hph])
    | tooMany => exact beginAbort_stays h rfl hcyc hb (by simp [pollStdPlace, hph])
  case h_7 hph hsub => -- P4, the sample
    obtain ⟨hph', hlow⟩ := pulsePhase_of_pollStdPlace hp (by simp [hph]) hctl hdata
    exact pollStdSample_frameStep hcyc hb hph' hlow h
  case h_8 hph _ => -- P4
    obtain ⟨hph', hlow⟩ := pulsePhase_of_pollStdPlace hp (by simp [hph]) hctl hdata
    have hend : s.cyc = 63 := by simpa [pulsePhase, hph] using hph'
    refine pollStdPulse_frameStep hcyc hb hph' hlow (fun cs l r h => ?_) h
    cases r with
    | finished =>
      cases h
      exact .inl ⟨rfl, hcyc, hb, by simp [pollStdPlace, hlow, hend]⟩
    | started => exact beginAbort_stays h rfl hcyc hb (by simp [pollStdPlace, hph])
    | notStarted => exact beginAbort_stays h rfl hcyc hb (by simp [pollStdPlace, hph])
    | tooMany => exact beginAbort_stays h rfl hcyc hb (by simp [pollStdPlace, hph])
  case h_9 pos hph hsub => -- P5
    obtain ⟨hlow, hend⟩ : s.outData = false ∧ s.cyc = 63 := by simpa [pollStdPlace, hph, hsub] using hp
    refine waitStep_elim h ?_ ?_ ?_
    · rintro cs ⟨⟩
      exact .inl ⟨rfl, by simp, hb, by simp [pollStdPlace]⟩
    · intro cs l h
      exact beginAbort_stays h rfl hcyc hb (by simp [pollStdPlace, hph])
    · intro cs l d q
      exact .inl ⟨rfl, hcyc, hb, by simp [pollStdPlace, hph, hlow, hend]⟩
  case h_10 hph hsub => exact pollStdP6_frameStep (by simpa [pollStdPlace, hph, hsub] using hp) hb hph h
  case h_11 n hph hsub =>
    have hle : s.cyc.toNat ≤ 7 := by simp_all [pollStdPlace]
    exact pollStdP6_frameStep hle hb hph h
  case h_12 hph hsub =>
    exact pollStdP7_frameStep hc (by simpa [pollStdPlace, hph, hsub] using hp) hb hph (.inl rfl) h
  case h_13 n hph hsub =>
    obtain ⟨⟨-, hend⟩, hlow⟩ : (n = 1 ∧ s.cyc = 7) ∧ s.outCtl = false := by simpa [pollStdPlace, hph, hsub] using hp
    exact pollStdP7_frameStep hc hend hb hph (.inr hlow) h
  case h_14 => cases h

/-- POLL.STD starts at its first place, with the buffers of its frame (rule R201). -/
theorem pollStdStep_start {r : StdConfig} {wait : Word} {s t : State}
    (hc : isInstance s.cfg .std .joystickClient = true) (hlow : s.outData = false)
    (h : pollStdStep r wait (launch (.pollStd r wait) s) = .next t) :
    FrameStays pollStdPlace (launch (.pollStd r wait) s) t := by
  obtain ⟨hv, hr⟩ : s.cfg.variant = .std ∧ s.cfg.role = .joystickClient := by simpa [isInstance] using hc
  cases h
  refine ⟨rfl, by simp, ?_, by simp [pollStdPlace, hlow]⟩
  simp [buffersOk, zeros_wf, txWidth, rxWidth, hv, hr]

/-! ## SEND.STD -/

theorem sendStdPlace_abortCtl {s : State} {code : Word} (h : s.sub = .abortCtl code) :
    sendStdPlace s = decide (s.phase ≠ .idle) := by
  cases hp : s.phase <;> simp [sendStdPlace, hp, h]

theorem sendStdPlace_abortData {s : State} {code : Word} (h : s.sub = .abortData code) :
    sendStdPlace s = (decide (s.phase ≠ .idle) && s.outCtl) := by
  cases hp : s.phase <;> simp [sendStdPlace, hp, h]

theorem idleCtl_stdTc {c : Config} (h : isInstance c .std .throttleClient = true) : idleCtl c = true := by
  simp_all [isInstance, idleCtl]

/-- A wait of SEND.STD: the level is there, or it stays, or it fails (rules R222, R223). -/
theorem sendStdWait_frameStep {s t : State} {v : Bool} {dl : Word} {pos : WaitPos} {place : WaitPos → Sub}
    {reached : State → Out} {f : FrameFailure} (hcyc : s.cyc.toNat ≤ 75) (hb : buffersOk s = true)
    (hph : s.phase ≠ .idle)
    (hreached : ∀ cs, reached { s with calls := cs } = .next t → FrameStep sendStdPlace s t)
    (hstays : ∀ cs l d q,
      sendStdPlace { s with calls := cs, lastRead := l, delayLeft := d, sub := place q } = true)
    (h : waitStep .ctlIn v dl pos place reached (fun s => beginAbort f s) s = .next t) :
    FrameStep sendStdPlace s t := by
  refine waitStep_elim h hreached ?_ ?_
  · intro cs l h
    refine beginAbort_stays h rfl hcyc hb ?_
    rw [sendStdPlace_abortCtl rfl]
    simpa using hph
  · intro cs l d q
    exact .inl ⟨rfl, hcyc, hb, hstays cs l d q⟩

theorem sendStdBit_frameStep {s t : State} (hcyc : s.cyc.toNat ≤ 75) (hb : buffersOk s = true)
    (hp : ∀ cs v, sendStdPlace { s with calls := cs, outData := v, sub := .seq 1 } = true)
    (h : sendStdBit s = .next t) :
    FrameStep sendStdPlace s t := by
  obtain ⟨v, -, h⟩ := orRangeFault_next h
  cases h
  exact .inl ⟨rfl, hcyc, hb, hp _ _⟩

/-- One call of a pulse: the next place of it, with the line low in between, or what follows it (rule R206). -/
theorem pulseOut_frameStep {s t : State} {n : Nat} {width : Word} {after : State → Out} (hcyc : s.cyc.toNat ≤ 75)
    (hb : buffersOk s = true) (hlevel : s.outCtl = decide (n ≤ 1))
    (hp : ∀ cs d, ∀ m ≤ 3, 1 ≤ m →
      sendStdPlace { s with calls := cs, delayLeft := d, outCtl := decide (m ≤ 1), sub := .seq m } = true)
    (hafter : ∀ cs, after { s with calls := cs, outCtl := true } = .next t → FrameStep sendStdPlace s t)
    (h : pulseOut width n after s = .next t) : FrameStep sendStdPlace s t := by
  unfold pulseOut at h
  split at h
  · cases h
    exact .inl ⟨rfl, hcyc, hb, hp _ s.delayLeft 2 (by decide) (by decide)⟩
  · cases h
    have hlow : s.outCtl = decide (3 ≤ 1) := hlevel
    refine .inl ⟨rfl, hcyc, hb, ?_⟩
    have hp3 := hp (.delayUs width :: s.calls) width.toNat 3 (by decide) (by decide)
    rw [← hlow] at hp3
    exact hp3
  · exact hafter _ h
  · cases h

theorem sendStdNextBit_frameStep {s u t : State} (h : sendStdNextBit u = .next t) (hcur : u.cur = s.cur)
    (hcyc : u.cyc.toNat ≤ 63) (hb : buffersOk u = true) (hhigh : u.outCtl = true) : FrameStep sendStdPlace s t := by
  unfold sendStdNextBit at h
  split at h
  case isTrue hlt =>
    cases h
    have hsucc := cyc_succ_toNat (c := u.cyc) (by omega)
    exact .inl ⟨hcur, by simp only [goto_cyc]; omega, hb, by simp [sendStdPlace, hhigh]; omega⟩
  case isFalse hge =>
    cases h
    have hend : u.cyc = 63 := by bv_omega
    exact .inl ⟨hcur, by simp only [goto_cyc]; omega, hb, by simp [sendStdPlace, hhigh, hend]⟩

theorem sendStdS5_frameStep {s t : State} (hb : buffersOk s = true) (hph : s.phase = .s5) (hhigh : s.outCtl = true)
    (hlow : s.outData = false) (hcyc : s.cyc.toNat ≤ 7) (h : sendStdS5 s.sub s = .next t) :
    FrameStep sendStdPlace s t := by
  have hcyc' : s.cyc.toNat ≤ 75 := by omega
  have hph' : s.phase ≠ .idle := by simp [hph]
  unfold sendStdS5 at h
  split at h
  · refine sendStdWait_frameStep hcyc' hb hph' ?_ ?_ h
    · rintro cs ⟨⟩
      exact .inl ⟨rfl, hcyc', hb, by simp [sendStdPlace, hph, hhigh, hlow, hcyc]⟩
    · simp [sendStdPlace, hph, hhigh, hlow, hcyc]
  · refine sendStdWait_frameStep hcyc' hb hph' ?_ ?_ h
    · rintro cs ⟨⟩
      exact .inl ⟨rfl, hcyc', hb, by simp [sendStdPlace, hph, hhigh, hlow, hcyc]⟩
    · simp [sendStdPlace, hph, hhigh, hlow, hcyc]
  · obtain ⟨b, hbit, h⟩ := orRangeFault_next h
    have hb' := buffersOk_setBit hb hbit
    split at h
    case isTrue hlt =>
      cases h
      have hsucc := cyc_succ_toNat (c := s.cyc) (by omega)
      exact .inl ⟨rfl, by simp only [goto_cyc]; omega, hb', by simp [sendStdPlace, hhigh, hlow]; omega⟩
    case isFalse hge =>
      cases h
      have hend : s.cyc = 7 := by bv_omega
      exact .inl ⟨rfl, hcyc', hb', by simp [sendStdPlace, hhigh, hlow, hend]⟩
  · cases h

theorem sendStdStep_frameStep {st : JoystickState} {wait : Word} {s t : State}
    (hc : isInstance s.cfg .std .throttleClient = true) (hcyc : s.cyc.toNat ≤ 75) (hb : buffersOk s = true)
    (hp : sendStdPlace s = true) (h : sendStdStep st wait s = .next t) : FrameStep sendStdPlace s t := by
  refine orAbort_frameStep hcyc hb ?_ ?_ (fun hctl hdata h => ?_) h
  · intro code code' hsub
    rw [sendStdPlace_abortData rfl]
    rw [sendStdPlace_abortCtl hsub] at hp
    simpa [idleCtl_stdTc hc] using hp
  · intro code hsub
    rw [sendStdPlace_abortData hsub] at hp
    simp_all [idleCtl_stdTc hc]
  split at h
  case h_1 hph hsub => simp [sendStdPlace, hph] at hp
  case h_2 pos hph hsub => -- S1
    have hhigh : s.outCtl = true := by simpa [sendStdPlace, hph, hsub] using hp
    refine sendStdWait_frameStep hcyc hb (by simp [hph]) ?_ ?_ h
    · rintro cs ⟨⟩
      exact .inl ⟨rfl, hcyc, hb, by simp [sendStdPlace, hph, hhigh]⟩
    · simp [sendStdPlace, hph, hhigh]
  case h_3 hph hsub => -- S1, the frame deadline
    have hhigh : s.outCtl = true := by simpa [sendStdPlace, hph, hsub] using hp
    cases h
    exact .inl ⟨rfl, by simp, hb, by simp [sendStdPlace, slotPlace, hhigh]⟩
  case h_4 hph hsub => -- S2, the bit
    obtain ⟨hhigh, hzero⟩ : s.outCtl = true ∧ s.cyc = 0 := by simpa [sendStdPlace, slotPlace, hph, hsub] using hp
    exact sendStdBit_frameStep hcyc hb (by simp [sendStdPlace, slotPlace, hph, hhigh, hzero]) h
  case h_5 n _ hph hsub => -- S2, the pulse
    obtain ⟨⟨-, hlevel⟩, hzero⟩ : (n ≤ 3 ∧ s.outCtl = decide (n ≤ 1)) ∧ s.cyc = 0 := by
      simpa [sendStdPlace, slotPlace, hph, hsub] using hp
    refine pulseOut_frameStep hcyc hb hlevel ?_ ?_ h
    · intro cs d m hm _
      simp [sendStdPlace, slotPlace, hph, hzero, hm]
    · intro cs h
      exact sendStdNextBit_frameStep h rfl (by simp [hzero]) hb rfl
  case h_6 pos hph hsub => -- S3, the prompt
    obtain ⟨⟨hhigh, hge⟩, hle⟩ : (s.outCtl = true ∧ 1 ≤ s.cyc.toNat) ∧ s.cyc.toNat ≤ 63 := by
      simpa [sendStdPlace, hph, hsub] using hp
    refine sendStdWait_frameStep hcyc hb (by simp [hph]) ?_ ?_ h
    · rintro cs ⟨⟩
      exact .inl ⟨rfl, hcyc, hb, by simp [sendStdPlace, slotPlace, hph, hhigh, hge, hle]⟩
    · simp [sendStdPlace, hph, hhigh, hge, hle]
  case h_7 hph hsub => -- S3, the bit
    obtain ⟨⟨hhigh, hge⟩, hle⟩ : (s.outCtl = true ∧ 1 ≤ s.cyc.toNat) ∧ s.cyc.toNat ≤ 63 := by
      simpa [sendStdPlace, slotPlace, hph, hsub] using hp
    exact sendStdBit_frameStep hcyc hb (by simp [sendStdPlace, slotPlace, hph, hhigh, hge, hle]) h
  case h_8 n _ hph hsub => -- S3, the pulse
    obtain ⟨⟨⟨-, hlevel⟩, hge⟩, hle⟩ : ((n ≤ 3 ∧ s.outCtl = decide (n ≤ 1)) ∧ 1 ≤ s.cyc.toNat) ∧ s.cyc.toNat ≤ 63 := by
      simpa [sendStdPlace, slotPlace, hph, hsub] using hp
    refine pulseOut_frameStep hcyc hb hlevel ?_ ?_ h
    · intro cs d m hm _
      simp [sendStdPlace, slotPlace, hph, hge, hle, hm]
    · intro cs h
      exact sendStdNextBit_frameStep h rfl hle hb rfl
  case h_9 pos hph hsub => -- S4, the prompt
    obtain ⟨hhigh, hend⟩ : s.outCtl = true ∧ s.cyc = 63 := by simpa [sendStdPlace, hph, hsub] using hp
    refine sendStdWait_frameStep hcyc hb (by simp [hph]) ?_ ?_ h
    · rintro cs ⟨⟩
      exact .inl ⟨rfl, hcyc, hb, by simp [sendStdPlace, slotPlace, hph, hhigh, hend]⟩
    · simp [sendStdPlace, hph, hhigh, hend]
  case h_10 hph hsub => -- S4, the data line back at idle
    obtain ⟨hhigh, hend⟩ : s.outCtl = true ∧ s.cyc = 63 := by simpa [sendStdPlace, slotPlace, hph, hsub] using hp
    cases h
    exact .inl ⟨rfl, hcyc, hb, by simp [sendStdPlace, slotPlace, hph, hhigh, hend]⟩
  case h_11 n hn hph hsub => -- S4, the long pulse
    obtain ⟨⟨⟨-, hlevel⟩, hend⟩, hlow⟩ :
        ((n ≤ 3 ∧ s.outCtl = decide (n ≤ 1)) ∧ s.cyc = 63) ∧ (n = 0 ∨ s.outData = false) := by
      simpa [sendStdPlace, slotPlace, hph, hsub] using hp
    have hlow' : s.outData = false := hlow.resolve_left hn
    refine pulseOut_frameStep hcyc hb hlevel ?_ ?_ h
    · intro cs d m hm hm1
      simp [sendStdPlace, slotPlace, hph, hend, hm, hlow']
    · rintro cs ⟨⟩
      exact .inl ⟨rfl, by simp, hb, by simp [sendStdPlace, hlow']⟩
  case h_12 hph => -- S5
    obtain ⟨⟨hhigh, hlow⟩, hle⟩ : (s.outCtl = true ∧ s.outData = false) ∧ s.cyc.toNat ≤ 7 := by
      cases hs : s.sub <;> simp_all [sendStdPlace]
    exact sendStdS5_frameStep hb hph hhigh hlow hle h
  case h_13 pos hph hsub => -- S6
    obtain ⟨⟨hhigh, hlow⟩, hend⟩ : (s.outCtl = true ∧ s.outData = false) ∧ s.cyc = 7 := by
      simpa [sendStdPlace, hph, hsub] using hp
    refine sendStdWait_frameStep hcyc hb (by simp [hph]) ?_ ?_ h
    · rintro cs ⟨⟩
      exact .inl ⟨rfl, hcyc, hb, by simp [sendStdPlace, hhigh, hlow, hend]⟩
    · simp [sendStdPlace, hph, hhigh, hlow, hend]
  case h_14 hph hsub => -- S7
    obtain ⟨⟨hhigh, hlow⟩, -⟩ : (s.outCtl = true ∧ s.outData = false) ∧ s.cyc = 7 := by
      simpa [sendStdPlace, hph, hsub] using hp
    obtain ⟨r, -, h⟩ := orRangeFault_next h
    cases h
    exact .inr (finishFrame_returns hb (by simp [outputsIdle, hhigh, hlow, idleCtl_stdTc hc]) rfl)
  case h_15 => cases h

/-- SEND.STD starts at its first place, with the buffers of its frame (rule R202). -/
theorem sendStdStep_start {st : JoystickState} {wait : Word} {s t : State}
    (hc : isInstance s.cfg .std .throttleClient = true) (hhigh : s.outCtl = true)
    (h : sendStdStep st wait (launch (.sendStd st wait) s) = .next t) :
    FrameStays sendStdPlace (launch (.sendStd st wait) s) t := by
  obtain ⟨hv, hr⟩ : s.cfg.variant = .std ∧ s.cfg.role = .throttleClient := by simpa [isInstance] using hc
  cases h
  refine ⟨rfl, by simp, ?_, by simp [sendStdPlace, hhigh]⟩
  simp [buffersOk, zeros_wf, txWidth, rxWidth, hv, hr]

end Sys2Proof.Machine
end

section
/-! The invariant (O50) and the end of a data-plane operation (O52), from the steps of the operations: a data-plane
operation stays at a place of it or returns with idle outputs, every other running operation stays at `(IDLE, 0)`, and
the rest of the invariant follows from what a step may write. -/

namespace Sys2Proof.Machine
open Sys2Proof.Claims

/-! ## The parts of the invariant -/

theorem State.inv_iff (s : State) : s.inv = true ↔
    buffersOk s = true ∧ s.cyc.toNat ≤ 75 ∧ placeOk s = true ∧ edgesOk s = true ∧ clockOk s = true := by
  simp [State.inv, and_assoc]

theorem atIdle_iff (s : State) : atIdle s = true ↔ s.phase = .idle ∧ s.cyc = 0 := by simp [atIdle]

theorem atRest_iff (s : State) :
    s.atRest = true ↔ s.cur = none ∧ atIdle s = true ∧ s.sub = .start ∧ s.delayLeft = 0 := by
  simp [State.atRest, and_assoc]

theorem dirsSet_iff (s : State) : dirsSet s = true ↔
    s.dirCtlOut = .output ∧ s.dirDataOut = .output ∧ s.dirCtlIn = .input ∧ s.dirDataIn = .input := by
  simp [dirsSet, and_assoc]

theorem outputsIdle_iff (s : State) : outputsIdle s = true ↔ s.outCtl = idleCtl s.cfg ∧ s.outData = false := by
  simp [outputsIdle]

theorem restsIdle_iff (s : State) : restsIdle s = true ↔ (s.setupDone = true →
    dirsSet s = true ∧ s.outData = false ∧
      (isInstance s.cfg .std .joystickClient = true ∨ s.outCtl = idleCtl s.cfg)) := by
  cases h : s.setupDone <;> simp [restsIdle, h, and_assoc]

theorem edgesOk_iff (s : State) : edgesOk s = true ↔
    (s.attached = true → isInstance s.cfg .std .joystickClient = true ∧ s.cfg.waiter = .interruptCounted) ∧
      (s.edgePending = 0 ∨ s.attached = true) := by
  cases h : s.attached <;> simp [edgesOk, h]

theorem clockOk_iff (s : State) : clockOk s = true ↔ ∀ a, s.lastRead = some a → (s.now - a).toNat < 2 ^ 31 := by
  cases h : s.lastRead <;> simp [clockOk, h]

/-- At rest with nothing running, `placeOk` is the idle outputs. -/
theorem placeOk_of_atRest {s : State} (h : s.atRest = true) (hr : restsIdle s = true) : placeOk s = true := by
  obtain ⟨hcur, hidle, hsub, hdelay⟩ := (atRest_iff s).mp h
  simp [placeOk, hcur, hidle, hsub, hdelay, hr]

theorem atRest_of_placeOk {s : State} (h : placeOk s = true) (hcur : s.cur = none) :
    s.atRest = true ∧ restsIdle s = true := by
  simp only [placeOk, hcur, Bool.and_eq_true, decide_eq_true_eq] at h
  obtain ⟨⟨⟨hidle, hsub⟩, hdelay⟩, hr⟩ := h
  exact ⟨(atRest_iff s).mpr ⟨hcur, hidle, hsub, hdelay⟩, hr⟩

/-- Idle outputs and the directions of Setup are rest, whatever the variant and role (rule R35). -/
theorem restsIdle_of_outputsIdle {s : State} (hd : dirsSet s = true) (ho : outputsIdle s = true) :
    restsIdle s = true := by
  obtain ⟨hctl, hdata⟩ := (outputsIdle_iff s).mp ho
  exact (restsIdle_iff s).mpr fun _ => ⟨hd, hdata, .inr hctl⟩

/-! ## What turns a call away -/

theorem setupRefusal_congr {s t : State} (h : t.cfg = s.cfg) (v : Variant) (r : Role) :
    setupRefusal v r t = setupRefusal v r s := by simp only [setupRefusal, h]

theorem waiterRefusal_congr {s t : State} (h : t.cfg = s.cfg) (w : Waiter) : waiterRefusal w t = waiterRefusal w s := by
  simp only [waiterRefusal, setupRefusal_congr h, h]

theorem planeRefusal_congr {s t : State} (h : t.cfg = s.cfg) (hd : t.setupDone = s.setupDone) (v : Variant) (r : Role) :
    planeRefusal v r t = planeRefusal v r s := by simp only [planeRefusal, setupRefusal_congr h, hd]

theorem isInstance_of_setupRefusal {v : Variant} {r : Role} {s : State} (h : setupRefusal v r s = none) :
    isInstance s.cfg v r = true := by
  unfold setupRefusal at h
  split at h
  case isTrue => cases h
  case isFalse hc => simpa using hc

theorem isInstance_of_waiterRefusal {w : Waiter} {s : State} (h : waiterRefusal w s = none) :
    isInstance s.cfg .std .joystickClient = true ∧ s.cfg.waiter = w := by
  unfold waiterRefusal at h
  split at h
  · cases h
  · rename_i hr
    exact ⟨isInstance_of_setupRefusal hr, by simpa using h⟩

theorem isInstance_of_planeRefusal {v : Variant} {r : Role} {s : State} (h : planeRefusal v r s = none) :
    isInstance s.cfg v r = true ∧ s.setupDone = true := by
  unfold planeRefusal at h
  split at h
  · cases h
  · rename_i hr
    exact ⟨isInstance_of_setupRefusal hr, by simpa using h⟩

/-! ## What a step keeps because it does not write it -/

section
variable {i : Instr} {s t : State}

theorem Wrote.setupDone_eq (w : Wrote i s t) (h : isSetup i = false) : t.setupDone = s.setupDone := by
  by_contra hne
  simpa [h] using (w.setupDone hne).1

theorem Wrote.dirs_eq (w : Wrote i s t) (h : isSetup i = false) : t.dirCtlOut = s.dirCtlOut ∧
    t.dirDataOut = s.dirDataOut ∧ t.dirCtlIn = s.dirCtlIn ∧ t.dirDataIn = s.dirDataIn := by
  have := w.dirs
  grind

theorem dirsSet_of_wrote (w : Wrote i s t) (h : isSetup i = false) (hs : dirsSet s = true) : dirsSet t = true := by
  obtain ⟨h1, h2, h3, h4⟩ := w.dirs_eq h
  simpa [dirsSet, h1, h2, h3, h4] using hs

theorem atIdle_of_wrote (w : Wrote i s t) (h : isDataPlane i = false) (hs : atIdle s = true) : atIdle t = true := by
  have := w.position
  simp only [atIdle_iff] at hs ⊢
  grind

theorem buffersOk_of_wrote (w : Wrote i s t) (h : isDataPlane i = false) (hs : buffersOk s = true) :
    buffersOk t = true := by
  have := w.frame
  have := w.cfg
  simp only [buffersOk_iff] at hs ⊢
  grind

theorem clockOk_of_wrote (w : Wrote i s t) (hs : clockOk s = true) : clockOk t = true := by
  have := w.lastRead
  have := w.now
  simp only [clockOk_iff] at hs ⊢
  intro a ha
  by_cases hne : t.lastRead = s.lastRead
  · rw [w.now]
    exact hs a (hne ▸ ha)
  · obtain rfl : s.now = a := by simpa [w.lastRead hne] using ha
    simp [w.now]

theorem edgesOk_of_wrote (w : Wrote i s t) (hcb : i ≠ .edgeCb) (hjc : i ≠ .setupStdJc) (hs : edgesOk s = true) :
    edgesOk t = true := by
  have := w.edges
  have := w.attached
  have := w.cfg
  simp only [edgesOk_iff] at hs ⊢
  grind

/-- The outputs stay at rest if the step leaves CTL_OUT alone, or may toggle it (rule R172). -/
theorem restsIdle_of_wrote (w : Wrote i s t) (hset : isSetup i = false) (hdp : isDataPlane i = false)
    (hctl : t.outCtl = s.outCtl ∨ isInstance s.cfg .std .joystickClient = true) (hs : restsIdle s = true) :
    restsIdle t = true := by
  have hdata : t.outData = s.outData := by
    have := w.outData
    grind
  rw [restsIdle_iff] at hs ⊢
  rw [w.setupDone_eq hset, w.cfg, hdata]
  intro hdone
  obtain ⟨hd, hlow, hidle⟩ := hs hdone
  refine ⟨dirsSet_of_wrote w hset hd, hlow, ?_⟩
  rcases hctl with hctl | hctl
  · exact hctl ▸ hidle
  · exact .inl hctl

end

/-! ## The waits of HOST's own and PEEK.PRO -/

theorem finish_atRest (r : Result) (s : State) : (finish r s).atRest = true := by simp [atRest_iff, atIdle_iff]

/-- The operation goes on, at a place among `places`, or it ends at rest. -/
def StaysOrRests (places : Sub → Prop) (s t : State) : Prop := (t.cur = s.cur ∧ places t.sub) ∨ t.atRest = true

theorem waitPinStep_next {p : InPin} {v : Bool} {dl : Word} {s t : State} (h : waitPinStep p v dl s = .next t) :
    StaysOrRests (fun sub => ∃ q, sub = .first q) s t := by
  unfold waitPinStep at h
  split at h
  case h_3 => cases h
  all_goals
    refine waitStep_elim h ?_ ?_ ?_
    · rintro cs ⟨⟩
      exact .inr (finish_atRest _ _)
    · rintro cs l ⟨⟩
      exact .inr (finish_atRest _ _)
    · intro cs l d q
      exact .inl ⟨rfl, q, rfl⟩

theorem waitPulseStep_next {w : Waiter} {dl : Word} {tr : Trigger} {s t : State}
    (h : waitPulseStep w dl tr s = .next t) : StaysOrRests (fun sub => pulsePlace w sub = true) s t := by
  unfold waitPulseStep at h
  split at h
  all_goals
    refine pulseStep_elim h ?_ ?_ ?_
    · rintro cs l r ⟨⟩
      exact .inr (finish_atRest _ _)
    · exact .inl ⟨by simp, pulsePlace_afterTrigger w⟩
    · intro cs l d b sub hsub
      exact .inl ⟨rfl, hsub⟩

theorem peekProStep_next {s t : State} (h : peekProStep s = .next t) :
    StaysOrRests (fun sub => ∃ c, sub = .peeked c) s t := by
  unfold peekProStep at h
  split at h
  · cases h
    exact .inl ⟨rfl, _, rfl⟩
  · cases h
    exact .inr (finish_atRest _ _)
  · cases h

/-! ## Setup -/

theorem setupPlace_iff (irq : Bool) (s : State) : setupPlace irq s = true ↔
    atIdle s = true ∧ ∃ n, s.sub = .seq n ∧ 1 ≤ n ∧ n ≤ 7 ∧ (irq = true ∨ n ≤ 5) ∧ s.outCtl = idleCtl s.cfg ∧
      (n < 2 ∨ s.dirCtlOut = .output) ∧ (n < 3 ∨ s.outData = false) ∧ (n < 4 ∨ s.dirDataOut = .output) ∧
      (n < 5 ∨ s.dirCtlIn = .input) ∧ (n < 6 ∨ s.dirDataIn = .input) := by
  cases h : s.sub <;> simp [setupPlace, h, and_assoc]

/-- What the end of a Setup leaves: rest, the directions, and idle outputs. -/
theorem setupEnds_next {v : Variant} {s : State} (hd : dirsSet s = true) (ho : outputsIdle s = true) :
    (setupEnds v s).atRest = true ∧ dirsSet (setupEnds v s) = true ∧ outputsIdle (setupEnds v s) = true :=
  ⟨finish_atRest _ _, hd, ho⟩

/-- A step of a Setup stands at the next of its calls, or ends with what Setup gives (rules R183, R203, R204). -/
theorem setupStep_next {v : Variant} {level irq : Bool} {s t : State} (hlevel : level = idleCtl s.cfg)
    (hidle : atIdle s = true) (hp : s.sub = .start ∨ setupPlace irq s = true) (hr : restsIdle s = true)
    (h : setupStep v level irq s = .next t) :
    (t.cur = s.cur ∧ setupPlace irq t = true ∧ restsIdle t = true) ∨
      (t.atRest = true ∧ dirsSet t = true ∧ outputsIdle t = true) := by
  unfold setupStep at h
  split at h
  case h_1 => -- CTL_OUT's latch
    cases h
    refine .inl ⟨rfl, ?_, ?_⟩
    · simpa [setupPlace_iff, atIdle, hlevel] using hidle
    · simp_all [restsIdle_iff, dirsSet_iff]
  case h_9 => cases h
  all_goals
    rename_i hsub
    simp [hsub, setupPlace_iff, hidle] at hp
  case h_2 | h_3 | h_4 | h_5 => -- the other latch, and the directions before the last
    cases h
    refine .inl ⟨rfl, ?_, ?_⟩
    · simp_all [setupPlace_iff, atIdle]
    · simp_all [restsIdle_iff, dirsSet_iff]
  case h_6 => -- DATA_IN an input
    split at h <;> cases h
    · refine .inl ⟨rfl, ?_, ?_⟩
      · simp_all [setupPlace_iff, atIdle]
      · simp_all [restsIdle_iff, dirsSet_iff]
    · refine .inr (setupEnds_next ?_ ?_)
      · simp_all [dirsSet_iff]
      · simp_all [outputsIdle_iff]
  case h_7 => -- the counter
    split at h
    · cases h
    split at h <;> cases h
    · refine .inr (setupEnds_next ?_ ?_)
      · simp_all [dirsSet_iff]
      · simp_all [outputsIdle_iff]
    · refine .inl ⟨rfl, ?_, hr⟩
      simp_all [setupPlace_iff, atIdle]
  case h_8 => -- the callback
    split at h <;> cases h
    refine .inr (setupEnds_next ?_ ?_)
    · simp_all [dirsSet_iff]
    · simp_all [outputsIdle_iff]

/-- A Setup drops pending edges and attaches the callback only if it is the interrupt-counted one (rule R203). -/
theorem setupStep_edges {v : Variant} {level irq : Bool} {s t : State} (h : setupStep v level irq s = .next t) :
    (t.edgePending = s.edgePending ∨ t.edgePending = 0) ∧ (t.attached = s.attached ∨ irq = true) := by
  unfold setupStep at h
  split at h
  case h_6 => split at h <;> cases h <;> simp
  case h_7 =>
    split at h
    · cases h
    split at h <;> cases h <;> simp
  case h_8 =>
    split at h
    · cases h
      simp [*]
    · cases h
  all_goals cases h <;> simp

/-! ## Running operations -/

/-- An operation of several steps: it is turned away, or nothing changes, or it makes its step, from its start or from
where it stands. -/
theorem running_cases {r : Option TurnAway} {i : Instr} {s t : State} {own : State → Out}
    (h : running r i s own = .next t) :
    (∃ w, t = turnAway w s) ∨ t = s ∨
      ∃ u, u.cur = some i ∧ own u = .next t ∧
        ((s.cur = none ∧ r = none ∧ u = launch i s) ∨ (s.cur = some i ∧ u = s)) := by
  rcases running_next h with ⟨-, w, -, rfl⟩ | ⟨hcur, hr, h⟩ | ⟨hcur, -, h⟩ | ⟨-, -, rfl⟩ | ⟨-, rfl⟩
  · exact .inl ⟨w, rfl⟩
  · exact .inr (.inr ⟨_, rfl, h, .inl ⟨hcur, hr, rfl⟩⟩)
  · exact .inr (.inr ⟨s, hcur, h, .inr ⟨hcur, rfl⟩⟩)
  · exact .inr (.inl rfl)
  · exact .inl ⟨_, rfl⟩

theorem resting_of_placeOk {s : State} (hs : placeOk s = true) (h : ∀ i, s.cur = some i → isDataPlane i = false) :
    atIdle s = true ∧ restsIdle s = true := by
  cases hcur : s.cur with
  | none => exact ⟨((atRest_iff s).mp (atRest_of_placeOk hs hcur).1).2.1, (atRest_of_placeOk hs hcur).2⟩
  | some i =>
    have hdp := h i hcur
    cases i <;> simp_all [placeOk, isDataPlane, setupPlace]

/-- An operation of several steps that is no Setup and no frame keeps its place, if its own step does. -/
theorem running_placeOk {r : Option TurnAway} {i : Instr} {s t : State} {own : State → Out} (hs : placeOk s = true)
    (w : Wrote i s t) (hset : isSetup i = false) (hdp : isDataPlane i = false)
    (hctl : r = none → t.outCtl = s.outCtl ∨ isInstance s.cfg .std .joystickClient = true)
    (hr : s.cur = some i → r = none)
    (hown : ∀ u, u.cur = some i → own u = .next t → r = none → atIdle t = true → restsIdle t = true → placeOk t = true)
    (h : running r i s own = .next t) : placeOk t = true := by
  rcases running_cases h with ⟨w', rfl⟩ | rfl | ⟨u, hu, h, hfrom⟩
  · exact hs
  · exact hs
  · have hcur : ∀ j, s.cur = some j → isDataPlane j = false := by
      rcases hfrom with ⟨hcur, -, -⟩ | ⟨hcur, -⟩ <;> simp [hcur, hdp]
    have hnone : r = none := by
      rcases hfrom with ⟨-, hnone, -⟩ | ⟨hcur, -⟩
      · exact hnone
      · exact hr hcur
    obtain ⟨hidle, hrests⟩ := resting_of_placeOk hs hcur
    exact hown u hu h hnone (atIdle_of_wrote w hdp hidle) (restsIdle_of_wrote w hset hdp (hctl hnone) hrests)

theorem execWaitPin_placeOk {p : InPin} {v : Bool} {dl : Word} {s t : State} (hs : placeOk s = true)
    (h : execWaitPin p v dl s = .next t) : placeOk t = true := by
  have w : Wrote (.waitPin p v dl) s t := exec_wrote h
  have hctl : t.outCtl = s.outCtl := by simpa [isSetup, isDataPlane] using w.outCtl
  refine running_placeOk hs w rfl rfl (fun _ => .inl hctl) (fun _ => rfl) (fun u hu h _ hidle hr => ?_) h
  rcases waitPinStep_next h with ⟨hcur, q, hsub⟩ | hrest
  · simp [placeOk, hcur, hu, hsub, hidle, hr]
  · exact placeOk_of_atRest hrest hr

theorem execWaitPulsePoll_placeOk {dl : Word} {tr : Trigger} {s t : State} (hs : placeOk s = true)
    (h : execWaitPulsePoll dl tr s = .next t) : placeOk t = true := by
  have w : Wrote (.waitPulsePoll dl tr) s t := exec_wrote h
  refine running_placeOk hs w rfl rfl (fun hr => .inr (isInstance_of_waiterRefusal hr).1) (fun hcur => ?_)
    (fun u hu h hnone hidle hr => ?_) h
  · simp_all [placeOk]
  · rcases waitPulseStep_next h with ⟨hcur, hsub⟩ | hrest
    · simp [placeOk, hcur, hu, hsub, hidle, hr, waiterRefusal_congr w.cfg, hnone]
    · exact placeOk_of_atRest hrest hr

theorem execWaitPulseIrq_placeOk {dl : Word} {tr : Trigger} {s t : State} (hs : placeOk s = true)
    (h : execWaitPulseIrq dl tr s = .next t) : placeOk t = true := by
  have w : Wrote (.waitPulseIrq dl tr) s t := exec_wrote h
  refine running_placeOk hs w rfl rfl (fun hr => .inr (isInstance_of_waiterRefusal hr).1) (fun hcur => ?_)
    (fun u hu h hnone hidle hr => ?_) h
  · simp_all [placeOk]
  · rcases waitPulseStep_next h with ⟨hcur, hsub⟩ | hrest
    · simp [placeOk, hcur, hu, hsub, hidle, hr, waiterRefusal_congr w.cfg, hnone]
    · exact placeOk_of_atRest hrest hr

theorem execPeekPro_placeOk {s t : State} (hs : placeOk s = true) (h : execPeekPro s = .next t) :
    placeOk t = true := by
  have w : Wrote .peekPro s t := exec_wrote h
  have hctl : t.outCtl = s.outCtl := by simpa [isSetup, isDataPlane] using w.outCtl
  refine running_placeOk hs w rfl rfl (fun _ => .inl hctl) (fun hcur => ?_) (fun u hu h hnone hidle hr => ?_) h
  · simp_all [placeOk]
  · rcases peekProStep_next h with ⟨hcur, c, hsub⟩ | hrest
    · simp [placeOk, hcur, hu, hsub, hidle, hr, planeRefusal_congr w.cfg (w.setupDone_eq rfl), hnone]
    · exact placeOk_of_atRest hrest hr

/-- A Setup keeps its place, and ends at rest. -/
theorem runningSetup_placeOk {r : Option TurnAway} {i : Instr} {s t : State} {v : Variant} {level irq : Bool}
    (hs : placeOk s = true) (hdp : isDataPlane i = false) (hr : s.cur = some i → r = none ∧ setupPlace irq s = true)
    (hlevel : r = none → level = idleCtl s.cfg)
    (hplace : t.cur = some i → r = none → setupPlace irq t = true → restsIdle t = true → placeOk t = true)
    (h : running r i s (setupStep v level irq) = .next t) : placeOk t = true := by
  rcases running_cases h with ⟨w', rfl⟩ | rfl | ⟨u, hu, h, hfrom⟩
  · exact hs
  · exact hs
  have hentry : r = none ∧ u.cfg = s.cfg ∧ atIdle u = true ∧ restsIdle u = true ∧
      (u.sub = .start ∨ setupPlace irq u = true) := by
    rcases hfrom with ⟨hcur, hnone, rfl⟩ | ⟨hcur, rfl⟩
    · exact ⟨hnone, rfl, rfl, (atRest_of_placeOk hs hcur).2, .inl rfl⟩
    · obtain ⟨hidle, hrests⟩ := resting_of_placeOk hs (by simp [hcur, hdp])
      exact ⟨(hr hcur).1, rfl, hidle, hrests, .inr (hr hcur).2⟩
  obtain ⟨hnone, hcfg, hidle, hrests, hp⟩ := hentry
  rcases setupStep_next (hcfg ▸ hlevel hnone) hidle hp hrests h with ⟨hcur, hp, hrests⟩ | ⟨hrest, hd, ho⟩
  · exact hplace (hcur.trans hu) hnone hp hrests
  · exact placeOk_of_atRest hrest (restsIdle_of_outputsIdle hd ho)

theorem execSetupProJc_placeOk {s t : State} (hs : placeOk s = true) (h : execSetupProJc s = .next t) :
    placeOk t = true := by
  have w : Wrote .setupProJc s t := exec_wrote h
  refine runningSetup_placeOk (irq := false) hs rfl (fun hcur => ?_) (fun hr => ?_) (fun hcur hr hp hrests => ?_) h
  · simp_all [placeOk]
  · exact (idleCtl_pro (isInstance_of_setupRefusal hr)).symm
  · simp [placeOk, hcur, setupRefusal_congr w.cfg, hr, hp, hrests]

theorem execSetupProTc_placeOk {s t : State} (hs : placeOk s = true) (h : execSetupProTc s = .next t) :
    placeOk t = true := by
  have w : Wrote .setupProTc s t := exec_wrote h
  refine runningSetup_placeOk (irq := false) hs rfl (fun hcur => ?_) (fun hr => ?_) (fun hcur hr hp hrests => ?_) h
  · simp_all [placeOk]
  · exact (idleCtl_pro (isInstance_of_setupRefusal hr)).symm
  · simp [placeOk, hcur, setupRefusal_congr w.cfg, hr, hp, hrests]

theorem execSetupStdJc_placeOk {s t : State} (hs : placeOk s = true) (h : execSetupStdJc s = .next t) :
    placeOk t = true := by
  have w : Wrote .setupStdJc s t := exec_wrote h
  refine runningSetup_placeOk hs rfl (fun hcur => ?_) (fun hr => ?_) (fun hcur hr hp hrests => ?_) h
  · simp_all [placeOk]
  · exact (idleCtl_stdJc (isInstance_of_setupRefusal hr)).symm
  · simp [placeOk, hcur, setupRefusal_congr w.cfg, hr, hp, hrests, w.cfg]

theorem execSetupStdTc_placeOk {s t : State} (hs : placeOk s = true) (h : execSetupStdTc s = .next t) :
    placeOk t = true := by
  have w : Wrote .setupStdTc s t := exec_wrote h
  refine runningSetup_placeOk (irq := false) hs rfl (fun hcur => ?_) (fun hr => ?_) (fun hcur hr hp hrests => ?_) h
  · simp_all [placeOk]
  · exact (idleCtl_stdTc (isInstance_of_setupRefusal hr)).symm
  · simp [placeOk, hcur, setupRefusal_congr w.cfg, hr, hp, hrests]

/-! ## The operations of one step -/

theorem finishStdDecode_atRest (r : Option JoystickState) (s : State) : (finishStdDecode r s).atRest = true := by
  cases r <;> exact finish_atRest _ _

theorem Ending.apply_atRest (e : Ending) (s : State) : (e.apply s).atRest = true := by
  cases e with
  | decodedStd r => exact finishStdDecode_atRest r s
  | _ => exact finish_atRest _ _

theorem exec_oneStep_placeOk {i : Instr} {s t : State} (hi : isOneStep i = true) (hset : isSetup i = false)
    (hdp : isDataPlane i = false) (hs : placeOk s = true) (h : exec i s = .next t) : placeOk t = true := by
  have w := exec_wrote h
  rcases exec_oneStep_next hi h with ⟨w', rfl⟩ | ⟨hcur, e, -, rfl⟩
  · exact hs
  · have hctl : (e.apply (launch i s)).outCtl = s.outCtl := by
      cases e with
      | decodedStd r => cases r <;> rfl
      | _ => rfl
    exact placeOk_of_atRest (e.apply_atRest _)
      (restsIdle_of_wrote w hset hdp (.inl hctl) (atRest_of_placeOk hs hcur).2)

theorem execPeekStd_placeOk {s t : State} (hs : placeOk s = true) (h : execPeekStd s = .next t) :
    placeOk t = true := by
  rcases oneStep_next h with ⟨-, rfl⟩ | ⟨-, w, -, rfl⟩ | ⟨hcur, -, ht⟩
  · exact hs
  · exact hs
  · cases ht
    exact placeOk_of_atRest (finish_atRest _ _) (atRest_of_placeOk hs hcur).2

theorem execEdgeCb_placeOk {s t : State} (hs : placeOk s = true) (h : execEdgeCb s = .next t) : placeOk t = true := by
  cases h
  split
  · exact hs
  · exact hs

/-- Every operation but the data-plane ones keeps the place. -/
theorem exec_placeOk {i : Instr} {s t : State} (hdp : isDataPlane i = false) (hs : placeOk s = true)
    (h : exec i s = .next t) : placeOk t = true := by
  cases i with
  | waitPin p v dl => exact execWaitPin_placeOk hs h
  | waitPulsePoll dl tr => exact execWaitPulsePoll_placeOk hs h
  | waitPulseIrq dl tr => exact execWaitPulseIrq_placeOk hs h
  | edgeCb => exact execEdgeCb_placeOk hs h
  | setupProJc => exact execSetupProJc_placeOk hs h
  | setupProTc => exact execSetupProTc_placeOk hs h
  | peekPro => exact execPeekPro_placeOk hs h
  | setupStdJc => exact execSetupStdJc_placeOk hs h
  | setupStdTc => exact execSetupStdTc_placeOk hs h
  | peekStd => exact execPeekStd_placeOk hs h
  | pollPro | sendPro | pollStd | sendStd => cases hdp
  | _ => exact exec_oneStep_placeOk rfl rfl rfl hs h

/-! ## The data-plane operations -/

/-- Why a data-plane operation is turned away, if it is. -/
def frameRefusal (i : Instr) (s : State) : Option TurnAway :=
  match i with
  | .pollPro _ _ => planeRefusal .pro .joystickClient s
  | .sendPro _ _ => planeRefusal .pro .throttleClient s
  | .pollStd _ _ => planeRefusal .std .joystickClient s
  | .sendStd _ _ => planeRefusal .std .throttleClient s
  | _ => none

/-- The places of a data-plane operation. -/
def framePlace (i : Instr) : State → Bool :=
  match i with
  | .pollPro _ _ => pollProPlace
  | .sendPro _ _ => sendProPlace
  | .pollStd _ _ => pollStdPlace
  | .sendStd _ _ => sendStdPlace
  | _ => fun _ => false

theorem placeOk_frame {i : Instr} {s : State} (hi : isDataPlane i = true) (hcur : s.cur = some i) :
    placeOk s = true ↔ frameRefusal i s = none ∧ dirsSet s = true ∧ framePlace i s = true := by
  cases i with
  | pollPro | sendPro | pollStd | sendStd => simp [placeOk, hcur, frameRefusal, framePlace, and_assoc]
  | _ => cases hi

theorem frameRefusal_congr {i : Instr} {s t : State} (hcfg : t.cfg = s.cfg) (hd : t.setupDone = s.setupDone) :
    frameRefusal i t = frameRefusal i s := by
  cases i with
  | pollPro | sendPro | pollStd | sendStd => exact planeRefusal_congr hcfg hd _ _
  | _ => rfl

/-- A step of a running data-plane operation, or no step while a `delay_us` is in progress. -/
theorem exec_frame_running {i : Instr} {s t : State} (hi : isDataPlane i = true) (hs : s.inv = true)
    (hcur : s.cur = some i) (h : exec i s = .next t) : t = s ∨ FrameStep (framePlace i) s t := by
  obtain ⟨hb, hcyc, hp, -, -⟩ := (State.inv_iff s).mp hs
  obtain ⟨hr, -, hp⟩ := (placeOk_frame hi hcur).mp hp
  have onward : ∀ {r own}, running r i s own = .next t → t = s ∨ own s = .next t := by
    intro r own h
    rcases running_next h with ⟨hnone, -⟩ | ⟨hnone, -⟩ | ⟨-, -, h⟩ | ⟨-, -, rfl⟩ | ⟨⟨j, hj, hne⟩, -⟩
    · simp [hcur] at hnone
    · simp [hcur] at hnone
    · exact .inr h
    · exact .inl rfl
    · simp_all
  cases i with
  | pollPro r wait =>
    exact (onward h).imp_right (pollProStep_frameStep (isInstance_of_planeRefusal hr).1 hcyc hb hp)
  | sendPro st wait =>
    exact (onward h).imp_right (sendProStep_frameStep (isInstance_of_planeRefusal hr).1 hcyc hb hp)
  | pollStd r wait =>
    exact (onward h).imp_right (pollStdStep_frameStep (isInstance_of_planeRefusal hr).1 hcyc hb hp)
  | sendStd st wait =>
    exact (onward h).imp_right (sendStdStep_frameStep (isInstance_of_planeRefusal hr).1 hcyc hb hp)
  | _ => cases hi

/-- The first step of a data-plane operation, unless it is turned away: Setup has left the outputs at idle. -/
theorem exec_frame_start {i : Instr} {s t : State} (hi : isDataPlane i = true) (hs : s.inv = true)
    (hcur : s.cur = none) (h : exec i s = .next t) :
    (∃ w, t = turnAway w s) ∨
      (frameRefusal i s = none ∧ dirsSet s = true ∧ FrameStays (framePlace i) (launch i s) t) := by
  obtain ⟨-, -, hp, -, -⟩ := (State.inv_iff s).mp hs
  have hrests := (restsIdle_iff s).mp (atRest_of_placeOk hp hcur).2
  have onward : ∀ {r own}, running r i s own = .next t →
      (∃ w, t = turnAway w s) ∨ (r = none ∧ own (launch i s) = .next t) := by
    intro r own h
    rcases running_next h with ⟨-, w, -, rfl⟩ | ⟨-, hr, h⟩ | ⟨hsome, -⟩ | ⟨hsome, -⟩ | ⟨⟨j, hj, -⟩, -⟩
    · exact .inl ⟨w, rfl⟩
    · exact .inr ⟨hr, h⟩
    all_goals simp_all
  cases i with
  | pollPro r wait =>
    refine (onward h).imp_right fun ⟨hr, h⟩ => ?_
    obtain ⟨hc, hdone⟩ := isInstance_of_planeRefusal hr
    obtain ⟨hd, -, hctl⟩ := hrests hdone
    have hlow : s.outCtl = false := by simpa [idleCtl_pro hc] using hctl.resolve_left (by simp_all [isInstance])
    exact ⟨hr, hd, pollProStep_start hc hlow h⟩
  | sendPro st wait =>
    refine (onward h).imp_right fun ⟨hr, h⟩ => ?_
    obtain ⟨hc, hdone⟩ := isInstance_of_planeRefusal hr
    obtain ⟨hd, -, hctl⟩ := hrests hdone
    have hlow : s.outCtl = false := by simpa [idleCtl_pro hc] using hctl.resolve_left (by simp_all [isInstance])
    exact ⟨hr, hd, sendProStep_start hc hlow h⟩
  | pollStd r wait =>
    refine (onward h).imp_right fun ⟨hr, h⟩ => ?_
    obtain ⟨hc, hdone⟩ := isInstance_of_planeRefusal hr
    obtain ⟨hd, hlow, -⟩ := hrests hdone
    exact ⟨hr, hd, pollStdStep_start hc hlow h⟩
  | sendStd st wait =>
    refine (onward h).imp_right fun ⟨hr, h⟩ => ?_
    obtain ⟨hc, hdone⟩ := isInstance_of_planeRefusal hr
    obtain ⟨hd, -, hctl⟩ := hrests hdone
    have hhigh : s.outCtl = true := by simpa [idleCtl_stdTc hc] using hctl.resolve_left (by simp_all [isInstance])
    exact ⟨hr, hd, sendStdStep_start hc hhigh h⟩
  | _ => cases hi

/-! ## Every operation keeps the invariant -/

theorem setup_ne_dataPlane {i : Instr} (h : isDataPlane i = true) :
    isSetup i = false ∧ i ≠ .edgeCb ∧ i ≠ .setupStdJc := by
  cases i <;> simp_all [isDataPlane, isSetup]

/-- A data-plane operation that goes on keeps the invariant. -/
theorem inv_of_frameStays {i : Instr} {s u t : State} (hi : isDataPlane i = true) (hs : s.inv = true)
    (w : Wrote i s t) (hr : frameRefusal i s = none) (hd : dirsSet s = true) (hu : u.cur = some i)
    (h : FrameStays (framePlace i) u t) : t.inv = true := by
  obtain ⟨-, -, -, he, hck⟩ := (State.inv_iff s).mp hs
  obtain ⟨hset, hcb, hjc⟩ := setup_ne_dataPlane hi
  have hp : placeOk t = true := (placeOk_frame hi (h.cur.trans hu)).mpr
    ⟨(frameRefusal_congr w.cfg (w.setupDone_eq hset)).trans hr, dirsSet_of_wrote w hset hd, h.place⟩
  exact (State.inv_iff t).mpr ⟨h.buffers, h.cyc, hp, edgesOk_of_wrote w hcb hjc he, clockOk_of_wrote w hck⟩

/-- A data-plane operation that returns keeps the invariant. -/
theorem inv_of_frameReturns {i : Instr} {s t : State} (hi : isDataPlane i = true) (hs : s.inv = true)
    (w : Wrote i s t) (hd : dirsSet s = true) (h : FrameReturns s t) : t.inv = true := by
  obtain ⟨-, -, -, he, hck⟩ := (State.inv_iff s).mp hs
  obtain ⟨hset, hcb, hjc⟩ := setup_ne_dataPlane hi
  obtain ⟨-, hidle, -, -⟩ := (atRest_iff t).mp h.rest
  have hp := placeOk_of_atRest h.rest (restsIdle_of_outputsIdle (dirsSet_of_wrote w hset hd) h.idle)
  refine (State.inv_iff t).mpr ⟨h.buffers, ?_, hp, edgesOk_of_wrote w hcb hjc he, clockOk_of_wrote w hck⟩
  simp [((atIdle_iff t).mp hidle).2]

theorem exec_frame_inv {i : Instr} {s t : State} (hi : isDataPlane i = true) (hs : s.inv = true)
    (hcur : s.cur = none ∨ s.cur = some i) (h : exec i s = .next t) : t.inv = true := by
  have w := exec_wrote h
  rcases hcur with hcur | hcur
  · rcases exec_frame_start hi hs hcur h with ⟨w', rfl⟩ | ⟨hr, hd, hstays⟩
    · exact hs
    · exact inv_of_frameStays hi hs w hr hd rfl hstays
  · obtain ⟨-, -, hp, -, -⟩ := (State.inv_iff s).mp hs
    obtain ⟨hr, hd, -⟩ := (placeOk_frame hi hcur).mp hp
    rcases exec_frame_running hi hs hcur h with rfl | hstays | hreturns
    · exact hs
    · exact inv_of_frameStays hi hs w hr hd hcur hstays
    · exact inv_of_frameReturns hi hs w hd hreturns

theorem execEdgeCb_edgesOk {s t : State} (hs : edgesOk s = true) (h : execEdgeCb s = .next t) : edgesOk t = true := by
  cases h
  split
  · rw [edgesOk_iff] at hs ⊢
    exact ⟨hs.1, hs.2.imp_left fun hzero => by simp [hzero]⟩
  · exact hs

theorem execSetupStdJc_edgesOk {s t : State} (hp : placeOk s = true) (hs : edgesOk s = true)
    (h : execSetupStdJc s = .next t) : edgesOk t = true := by
  have w : Wrote .setupStdJc s t := exec_wrote h
  rcases running_cases h with ⟨w', rfl⟩ | rfl | ⟨u, hu, h, hfrom⟩
  · exact hs
  · exact hs
  have hentry : setupRefusal .std .joystickClient s = none ∧ u.edgePending = s.edgePending ∧
      u.attached = s.attached := by
    rcases hfrom with ⟨-, hr, rfl⟩ | ⟨hcur, rfl⟩
    · exact ⟨hr, rfl, rfl⟩
    · refine ⟨?_, rfl, rfl⟩
      simp_all [placeOk]
  obtain ⟨hr, hpend, hatt⟩ := hentry
  have hc := isInstance_of_setupRefusal hr
  obtain ⟨hpend', hatt'⟩ := setupStep_edges h
  have hmore := w.attached
  rw [edgesOk_iff] at hs ⊢
  rw [w.cfg]
  grind

/-- Every operation that HOST may start or that runs keeps the invariant. -/
theorem exec_inv {i : Instr} {s t : State} (hs : s.inv = true) (hcur : s.cur = none ∨ s.cur = some i ∨ i = .edgeCb)
    (h : exec i s = .next t) : t.inv = true := by
  have w := exec_wrote h
  by_cases hdp : isDataPlane i = true
  · refine exec_frame_inv hdp hs ?_ h
    exact hcur.imp_right fun hcur => hcur.resolve_right fun hi => by simp [hi, isDataPlane] at hdp
  · have hdp' : isDataPlane i = false := by simpa using hdp
    obtain ⟨hb, hcyc, hp, he, hck⟩ := (State.inv_iff s).mp hs
    have hcyc' : t.cyc.toNat ≤ 75 := by
      by_cases hsame : t.cyc = s.cyc
      · exact hsame ▸ hcyc
      · obtain ⟨-, hzero⟩ := (w.position (.inr hsame)).resolve_left hdp
        simp [hzero]
    have he' : edgesOk t = true := by
      by_cases hcb : i = .edgeCb
      · subst hcb
        exact execEdgeCb_edgesOk he h
      by_cases hjc : i = .setupStdJc
      · subst hjc
        exact execSetupStdJc_edgesOk hp he h
      exact edgesOk_of_wrote w hcb hjc he
    exact (State.inv_iff t).mpr
      ⟨buffersOk_of_wrote w hdp' hb, hcyc', exec_placeOk hdp' hp h, he', clockOk_of_wrote w hck⟩

/-! ## The agents -/

theorem peerDrivesCtl_inv {v : Bool} {s : State} (hs : s.inv = true) : (peerDrivesCtl v s).inv = true := by
  obtain ⟨hb, hcyc, hp, he, hck⟩ := (State.inv_iff s).mp hs
  refine (State.inv_iff _).mpr ⟨hb, hcyc, hp, ?_, hck⟩
  rw [edgesOk_iff] at he ⊢
  refine ⟨he.1, ?_⟩
  have := he.2
  simp only [peerDrivesCtl_edgePending, peerDrivesCtl_attached]
  grind

/-- A place does not depend on how long a `delay_us` in progress still has to last, but rest has none. -/
theorem placeOk_clockAdvances {us : Word} {s : State} (hs : placeOk s = true) :
    placeOk (clockAdvances us s) = true := by
  cases hcur : s.cur with
  | none =>
    obtain ⟨hrest, hidle⟩ := atRest_of_placeOk hs hcur
    obtain ⟨-, hat, hsub, hdelay⟩ := (atRest_iff s).mp hrest
    exact placeOk_of_atRest ((atRest_iff _).mpr ⟨hcur, hat, hsub, by simp [hdelay]⟩) hidle
  | some i =>
    rw [← hs]
    unfold placeOk
    rw [clockAdvances_cur, hcur]
    cases i <;> rfl

theorem clockAdvances_clockOk {us : Word} {s : State} (hs : clockOk s = true) :
    clockOk (clockAdvances us s) = true := by
  rw [clockOk_iff] at hs ⊢
  intro a ha
  have hsince := hs a ha
  rw [clockAdvances_since (s := s) ha hsince]
  omega

theorem newInstance_inv {c : Config} {s : State} (hs : s.inv = true) : (newInstance c s).inv = true := by
  obtain ⟨-, -, -, -, hck⟩ := (State.inv_iff s).mp hs
  exact (State.inv_iff _).mpr ⟨construct_buffersOk c, Nat.zero_le _, rfl, rfl, hck⟩

theorem call_inv {c : Code} {s t : State} (hs : s.inv = true) (h : call c s = .next t) : t.inv = true := by
  rcases call_next h with ⟨w, rfl⟩ | ⟨i, -, -, hcur, h⟩
  · exact hs
  · exact exec_inv hs (.inl hcur) h

/-- One turn of any agent keeps the invariant. -/
theorem turn_inv {e : Event} {s t : State} (hs : s.inv = true) (h : turn e s = .next t) : t.inv = true := by
  rcases turn_next h with ⟨-, h⟩ | ⟨-, h⟩ | ⟨v, -, rfl⟩ | ⟨v, -, rfl⟩ | ⟨us, -, rfl⟩ | ⟨a, -, rfl⟩ | ⟨code, -, h⟩ |
    ⟨c, -, rfl⟩ | ⟨n, b, -, h⟩
  · rcases engineTurn_next h with ⟨i, hcur, h⟩ | ⟨-, rfl⟩
    · exact exec_inv hs (.inr (.inl hcur)) h
    · exact hs
  · exact exec_inv hs (.inr (.inr rfl)) h
  · exact peerDrivesCtl_inv hs
  · exact hs
  · obtain ⟨hb, hcyc, hp, he, hck⟩ := (State.inv_iff s).mp hs
    exact (State.inv_iff _).mpr ⟨hb, hcyc, placeOk_clockAdvances hp, he, clockAdvances_clockOk hck⟩
  · exact hs
  · exact call_inv hs h
  · rcases hostConstructs_cases c s with ⟨w, heq⟩ | ⟨-, heq⟩
    · rw [heq]
      exact hs
    · rw [heq]
      exact newInstance_inv hs
  · exact call_inv hs h

/-- Taking an event from the queue touches nothing the invariant speaks of. -/
theorem takeEvent_inv {s : State} (hs : s.inv = true) : (takeEvent s).inv = true := by
  unfold takeEvent
  split
  · exact hs
  · exact hs

/-- Settles O50: the event is taken, and its agent's turn keeps the invariant. -/
theorem stepKeepsInvariant : Obligations.StepKeepsInvariant := by
  intro s t hs h
  exact turn_inv (takeEvent_inv hs) h

/-- Settles O52: a running data-plane operation that has come to rest returned, which leaves idle outputs. -/
theorem outputsIdleAtReturn : Obligations.OutputsIdleAtReturn := by
  intro i s t hi hs hcur h hend
  have w := exec_wrote h
  obtain ⟨-, -, hp, -, -⟩ := (State.inv_iff s).mp hs
  obtain ⟨-, hd, -⟩ := (placeOk_frame hi hcur).mp hp
  rcases exec_frame_running hi hs hcur h with rfl | hstays | hreturns
  · simp [hcur] at hend
  · simp [hstays.cur, hcur] at hend
  · exact ⟨hreturns.idle, dirsSet_of_wrote w (setup_ne_dataPlane hi).1 hd, hreturns.rest, hreturns.result,
      hreturns.history⟩

end Sys2Proof.Machine
end

section
/-! The surroundings (O44): what the agents other than ENGINE and HOST's calls change, that reads of the clock do not go
back, and that a `delay_us` holds ENGINE long enough. -/

namespace Sys2Proof.Machine
open Sys2Proof.Claims

/-! ## CLOCK -/

/-- Where the clock still has room, it advances by all of the event (rule R43). -/
theorem clockAdvances_eq_of_room {us : Word} {s : State}
    (h : ∀ a, s.lastRead = some a → (s.now - a).toNat + us.toNat < 2 ^ 31) :
    clockAdvances us s = { s with now := s.now + us, delayLeft := s.delayLeft - us.toNat } := by
  have hroom : us.toNat ≤ clockRoom s := by
    unfold clockRoom
    split
    · omega
    · rename_i a ha
      have := h a ha
      omega
  simp [clockAdvances, Nat.min_eq_left hroom]

/-- Where it has not, the clock stops 2^31 - 1 past the last read (rule R54; log entry 10). -/
theorem clockAdvances_eq_of_full {us a : Word} {s : State} (ha : s.lastRead = some a) (hs : (s.now - a).toNat < 2 ^ 31)
    (hus : 2 ^ 31 ≤ (s.now - a).toNat + us.toNat) :
    clockAdvances us s = { s with now := a + 0x7FFFFFFF, delayLeft := s.delayLeft - us.toNat } := by
  have hroom : min us.toNat (clockRoom s) = 2 ^ 31 - 1 - (s.now - a).toNat := by
    simp only [clockRoom, ha]
    omega
  have hnow : s.now + BitVec.ofNat 32 (2 ^ 31 - 1 - (s.now - a).toNat) = a + 0x7FFFFFFF := by
    bv_omega
  simp only [clockAdvances, hroom, hnow]

theorem toInt_nonneg_of_lt {x : Word} (h : x.toNat < 2 ^ 31) : 0 ≤ x.toInt := by
  rw [BitVec.toInt_eq_toNat_of_lt (by omega)]
  omega

/-! ## Reads of the clock -/

/-- The last value read is what it was, or what the clock shows (rule R54). -/
theorem turn_lastRead {e : Event} {s t : State} (h : turn e s = .next t) :
    t.lastRead = s.lastRead ∨ t.lastRead = some s.now := by
  have onExec : ∀ {i}, exec i s = .next t → t.lastRead = s.lastRead ∨ t.lastRead = some s.now := fun h =>
    or_iff_not_imp_left.mpr (exec_wrote h).lastRead
  have onCall : ∀ {c}, call c s = .next t → t.lastRead = s.lastRead ∨ t.lastRead = some s.now := by
    intro c h
    rcases call_next h with ⟨w, rfl⟩ | ⟨i, -, -, -, h⟩
    · exact .inl rfl
    · exact onExec h
  rcases turn_next h with ⟨-, h⟩ | ⟨-, h⟩ | ⟨v, -, rfl⟩ | ⟨v, -, rfl⟩ | ⟨us, -, rfl⟩ | ⟨a, -, rfl⟩ | ⟨code, -, h⟩ |
    ⟨c, -, rfl⟩ | ⟨n, b, -, h⟩
  · rcases engineTurn_next h with ⟨i, -, h⟩ | ⟨-, rfl⟩
    · exact onExec h
    · exact .inl rfl
  · exact onExec h
  · exact .inl rfl
  · exact .inl rfl
  · exact .inl rfl
  · exact .inl rfl
  · exact onCall h
  · rcases hostConstructs_cases c s with ⟨w, heq⟩ | ⟨-, heq⟩ <;> exact .inl (by rw [heq]; rfl)
  · exact onCall h

/-- Two successive reads do not go back (rule R54). -/
theorem turn_reads_forward {e : Event} {s t : State} {a b : Word} (hs : s.inv = true) (h : turn e s = .next t)
    (ha : s.lastRead = some a) (hb : t.lastRead = some b) : 0 ≤ (b - a).toInt := by
  obtain ⟨-, -, -, -, hck⟩ := (State.inv_iff s).mp hs
  rcases turn_lastRead h with hsame | hread
  · obtain rfl : a = b := by simpa [hsame, ha] using hb
    simp
  · obtain rfl : s.now = b := by simpa [hread] using hb
    exact toInt_nonneg_of_lt ((clockOk_iff s).mp hck a ha)

/-! ## A `delay_us` in progress -/

/-- A `delay_us(n)` that began when `a` was the last value read: the clock is `n` past `a` but for what is left of it, or
stands where rule R54 stops it. -/
def delayHolds (n a : Word) (s : State) : Prop :=
  s.cur ≠ none ∧ s.lastRead = some a ∧ (s.now - a).toNat < 2 ^ 31 ∧
    (n.toNat ≤ (s.now - a).toNat + s.delayLeft ∨ (s.now - a).toNat = 2 ^ 31 - 1)

theorem clockAdvances_delayHolds {n a us : Word} {s : State} (hs : delayHolds n a s) :
    delayHolds n a (clockAdvances us s) := by
  obtain ⟨hcur, ha, hlt, hleft⟩ := hs
  have hsince := clockAdvances_since (us := us) ha hlt
  refine ⟨hcur, ha, ?_, ?_⟩
  · omega
  · rw [hsince, clockAdvances_delayLeft]
    omega

theorem turn_delayHolds {n a : Word} {e : Event} {s t : State} (hs : delayHolds n a s) (he : e ≠ .engine)
    (hc : ∀ c, e ≠ .construct c) (h : turn e s = .next t) : delayHolds n a t := by
  have onCall : ∀ {c}, call c s = .next t → delayHolds n a t := by
    intro c h
    rcases call_next h with ⟨w, rfl⟩ | ⟨i, -, -, hcur, -⟩
    · exact hs
    · exact absurd hcur hs.1
  rcases turn_next h with ⟨rfl, -⟩ | ⟨-, h⟩ | ⟨v, -, rfl⟩ | ⟨v, -, rfl⟩ | ⟨us, -, rfl⟩ | ⟨a', -, rfl⟩ | ⟨code, -, h⟩ |
    ⟨c, rfl, -⟩ | ⟨n', b, -, h⟩
  · exact absurd rfl he
  · cases h
    split
    · exact hs
    · exact hs
  · exact hs
  · exact hs
  · exact clockAdvances_delayHolds hs
  · exact hs
  · exact onCall h
  · exact absurd rfl (hc c)
  · exact onCall h

theorem turns_cons_next {e : Event} {es : List Event} {s t : State} (h : turns (e :: es) s = .next t) :
    ∃ u, turn e s = .next u ∧ turns es u = .next t := by
  unfold turns at h
  split at h
  · exact ⟨_, ‹_›, h⟩
  · cases h
  · cases h

theorem turns_delayHolds {n a : Word} {es : List Event} {s t : State} (hs : delayHolds n a s)
    (he : ∀ e ∈ es, e ≠ .engine ∧ ∀ c, e ≠ .construct c) (h : turns es s = .next t) : delayHolds n a t := by
  induction es generalizing s with
  | nil =>
    cases h
    exact hs
  | cons e es ih =>
    obtain ⟨u, hu, h⟩ := turns_cons_next h
    obtain ⟨hne, hnc⟩ := he e (by simp)
    exact ih (turn_delayHolds hs hne hnc hu) (fun e' he' => he e' (by simp [he'])) h

/-- When the delay has ended, the clock is at least `n` past the last read before it (rule R55; log entry 11). -/
theorem delay_elapsed {n a : Word} {t : State} (h : delayHolds n a t) (hn : n.toNat < 2 ^ 31) (hend : t.delayLeft = 0) :
    n.toInt ≤ (t.now - a).toInt := by
  obtain ⟨-, -, hlt, hleft⟩ := h
  rw [BitVec.toInt_eq_toNat_of_lt (by omega), BitVec.toInt_eq_toNat_of_lt (by omega)]
  omega

/-- An operation of several steps does not move while its `delay_us` is in progress (rule R55). -/
theorem running_held {r : Option TurnAway} {i : Instr} {s : State} {own : State → Out} (hcur : s.cur = some i)
    (hd : 0 < s.delayLeft) : running r i s own = .next s := by
  simp [running, hcur, Nat.ne_of_gt hd]

theorem engineTurn_held {i : Instr} {s : State} (hcur : s.cur = some i) (hd : 0 < s.delayLeft)
    (hi : isDataPlane i = true ∨ (∃ p v dl, i = .waitPin p v dl) ∨ (∃ dl tr, i = .waitPulsePoll dl tr) ∨
      (∃ dl tr, i = .waitPulseIrq dl tr)) : engineTurn s = .next s := by
  rw [engineTurn_of_cur hcur]
  rcases hi with hi | ⟨p, v, dl, rfl⟩ | ⟨dl, tr, rfl⟩ | ⟨dl, tr, rfl⟩
  · cases i with
    | pollPro | sendPro | pollStd | sendStd => exact running_held hcur hd
    | _ => cases hi
  · exact running_held (r := none) hcur hd
  · exact running_held hcur hd
  · exact running_held hcur hd

/-- Settles O44: an equation for each agent, and the two facts about the clock. -/
theorem surroundingsMoveAndDelaysHold : Obligations.SurroundingsMoveAndDelaysHold := by
  refine ⟨?peerCtl, ?peerData, ?clockRoom, ?clockFull, ?reads, ?delay, ?construct, ?notConstructible, ?hostArgs, ?rest,
    ?held⟩
  case peerCtl =>
    intro v s
    simp [turn, peerDrivesCtl, and_assoc]
  case peerData => exact fun v s => rfl
  case clockRoom => exact fun us s h => congrArg Host.Outcome.next (clockAdvances_eq_of_room h)
  case clockFull => exact fun us a s ha hlt hus => congrArg Host.Outcome.next (clockAdvances_eq_of_full ha hlt hus)
  case reads => exact fun e s t a b hs h ha hb => turn_reads_forward hs h ha hb
  case delay =>
    intro es s t n a hs hcur ha hleft hn he h hend
    obtain ⟨-, -, -, -, hck⟩ := (State.inv_iff s).mp hs
    have hbegins : delayHolds n a s := ⟨hcur, ha, (clockOk_iff s).mp hck a ha, .inl (by omega)⟩
    exact delay_elapsed (turns_delayHolds hbegins he h) hn hend
  case construct =>
    intro c s hc
    simp only [turn, hostConstructs, hc, if_true, newInstance]
  case notConstructible =>
    intro c s hc
    simp [turn, hostConstructs, hc, turnAway]
  case hostArgs => exact fun a s => rfl
  case rest =>
    intro s hcur
    simp [turn, engineTurn, hcur]
  case held => exact fun i s hcur hd hi => engineTurn_held hcur hd hi

end Sys2Proof.Machine
end

section
/-! Nothing carries over (O55). The essence of a state is the state without what earlier operations left stale. Every
turn treats a state and its essence alike, so two states with one essence run alike. -/

namespace Sys2Proof.Machine
open Sys2Proof.Claims

/-! ## The essence of a state -/

/-- A data-plane operation runs, and `TXBUF`, `RXBUF` and `DL` are its own. -/
def ownsFrame (cur : Option Instr) : Bool := cur.any isDataPlane

@[simp] theorem ownsFrame_none : ownsFrame none = false := rfl

/-- The waiter an operation waits with: its own, else the configured one. -/
def waiterOf (i : Instr) (c : Config) : Waiter :=
  match i with
  | .waitPulsePoll _ _ => .polling
  | .waitPulseIrq _ _ => .interruptCounted
  | _ => c.waiter

/-- The running operation is past the snapshot of its wait, and `BASE_CNT` is its own (rule R174). -/
def ownsBase (cur : Option Instr) (c : Config) (sub : Sub) : Bool :=
  match cur, sub with
  | some i, .trigger => decide (waiterOf i c = .interruptCounted)
  | some i, .count _ => decide (waiterOf i c = .interruptCounted)
  | _, _ => false

/-- A state without what an operation may leave stale, and without its calls. -/
def State.bare (s : State) : State :=
  { s with
    txbuf := zeros 0, rxbuf := zeros 0, dl := 0, pwResult := .finished, ok := false, err := 0
    edgeCnt := 0, baseCnt := 0, calls := [] }

/-- A state without what an earlier operation left stale: the running operation's own elements stay, of the counter the
edges since the snapshot, of the calls all but the counter values. -/
def State.essence (s : State) : State :=
  { s.bare with
    txbuf := if ownsFrame s.cur then s.txbuf else zeros 0
    rxbuf := if ownsFrame s.cur then s.rxbuf else zeros 0
    dl := if ownsFrame s.cur then s.dl else 0
    baseCnt := if ownsBase s.cur s.cfg s.sub then s.baseCnt - s.edgeCnt else 0
    calls := s.calls.map anyCount }

/-- An outcome without what is stale in its next state. -/
def view (o : Out) : Out :=
  match o with
  | .next t => .next t.essence
  | .fault f => .fault f
  | .refused r => .refused r

@[simp] theorem anyCount_counterRead (n : Word) : anyCount (.counterRead n) = .counterRead 0 := rfl
@[simp] theorem anyCount_pinWrite (p : OutPin) (v : Bool) : anyCount (.pinWrite p v) = .pinWrite p v := rfl
@[simp] theorem anyCount_anyCount (c : PrimCall) : anyCount (anyCount c) = anyCount c := by cases c <;> rfl
@[simp] theorem anyCount_comp_anyCount : anyCount ∘ anyCount = anyCount := funext anyCount_anyCount

@[simp] theorem essence_calls (s : State) : s.essence.calls = s.calls.map anyCount := rfl
@[simp] theorem essence_cfg (s : State) : s.essence.cfg = s.cfg := rfl
@[simp] theorem essence_now (s : State) : s.essence.now = s.now := rfl
@[simp] theorem essence_req (s : State) : s.essence.req = s.req := rfl
@[simp] theorem essence_wCtlIn (s : State) : s.essence.wCtlIn = s.wCtlIn := rfl
@[simp] theorem essence_wDataIn (s : State) : s.essence.wDataIn = s.wDataIn := rfl
@[simp] theorem essence_cur (s : State) : s.essence.cur = s.cur := rfl
@[simp] theorem essence_phase (s : State) : s.essence.phase = s.phase := rfl
@[simp] theorem essence_cyc (s : State) : s.essence.cyc = s.cyc := rfl
@[simp] theorem essence_sub (s : State) : s.essence.sub = s.sub := rfl
@[simp] theorem essence_edgeCnt (s : State) : s.essence.edgeCnt = 0 := rfl
@[simp] theorem essence_txbuf {s : State} (h : ownsFrame s.cur = true) : s.essence.txbuf = s.txbuf := by
  simp [State.essence, h]
@[simp] theorem essence_rxbuf {s : State} (h : ownsFrame s.cur = true) : s.essence.rxbuf = s.rxbuf := by
  simp [State.essence, h]
@[simp] theorem essence_dl {s : State} (h : ownsFrame s.cur = true) : s.essence.dl = s.dl := by
  simp [State.essence, h]
@[simp] theorem essence_baseCnt {s : State} (h : ownsBase s.cur s.cfg s.sub = true) :
    s.essence.baseCnt = s.baseCnt - s.edgeCnt := by simp [State.essence, h]

/-- States with one essence: they agree in all that is never stale, in their calls but for counter values, and in what is
the running operation's own. -/
theorem essence_eq {a b : State} (h : a.bare = b.bare)
    (hcalls : a.calls.map anyCount = b.calls.map anyCount := by simp)
    (hframe : ownsFrame b.cur = true → a.txbuf = b.txbuf ∧ a.rxbuf = b.rxbuf ∧ a.dl = b.dl := by simp +contextual)
    (hbase : ownsBase b.cur b.cfg b.sub = true → a.baseCnt - a.edgeCnt = b.baseCnt - b.edgeCnt := by
      simp [ownsBase]) :
    a.essence = b.essence := by
  have hcur : a.cur = b.cur := (congrArg State.cur h :)
  have hcfg : a.cfg = b.cfg := (congrArg State.cfg h :)
  have hsub : a.sub = b.sub := (congrArg State.sub h :)
  unfold State.essence
  rw [h, hcur, hcfg, hsub, hcalls]
  by_cases hf : ownsFrame b.cur = true
  · obtain ⟨htx, hrx, hdl⟩ := hframe hf
    by_cases hb : ownsBase b.cur b.cfg b.sub = true
    · rw [htx, hrx, hdl, if_pos hb, if_pos hb, hbase hb]
    · rw [htx, hrx, hdl, if_neg hb, if_neg hb]
  · by_cases hb : ownsBase b.cur b.cfg b.sub = true
    · simp only [if_neg hf, if_pos hb, hbase hb]
    · simp only [if_neg hf, if_neg hb]

/-- Outcomes with next states of one essence look alike. -/
theorem view_next_eq {a b : State} (h : a.bare = b.bare)
    (hcalls : a.calls.map anyCount = b.calls.map anyCount := by simp)
    (hframe : ownsFrame b.cur = true → a.txbuf = b.txbuf ∧ a.rxbuf = b.rxbuf ∧ a.dl = b.dl := by simp +contextual)
    (hbase : ownsBase b.cur b.cfg b.sub = true → a.baseCnt - a.edgeCnt = b.baseCnt - b.edgeCnt := by
      simp [ownsBase]) :
    view (.next a) = view (.next b) := congrArg Host.Outcome.next (essence_eq h hcalls hframe hbase)

/-! ## Meanings that do not see what is stale -/

/-- A piece of the meaning of `i` that makes the same of a state and of its essence. -/
def Sees (i : Instr) (k : State → Out) : Prop := ∀ s, s.cur = some i → view (k s.essence) = view (k s)

theorem Sees.view_eq {i : Instr} {k : State → Out} {a b : State} (h : Sees i k) (hab : a.essence = b.essence)
    (ha : a.cur = some i) (hb : b.cur = some i) : view (k a) = view (k b) :=
  calc view (k a) = view (k a.essence) := (h a ha).symm
    _ = view (k b.essence) := by rw [hab]
    _ = view (k b) := h b hb

theorem view_ite {c : Prop} [Decidable c] {x x' y y' : Out} (hx : c → view x = view x') (hy : ¬c → view y = view y') :
    view (if c then x else y) = view (if c then x' else y') := by
  by_cases h : c
  · simp only [if_pos h, hx h]
  · simp only [if_neg h, hy h]

theorem view_orRangeFault {α : Type} {r : Except RangeInfo α} {k k' : α → Out} (h : ∀ v, view (k v) = view (k' v)) :
    view (orRangeFault r k) = view (orRangeFault r k') := by
  cases r with
  | error e => rfl
  | ok v => exact h v

theorem pinRead_essence (p : InPin) (s : State) : pinRead p s.essence = (pinRead p s).essence := by cases p <;> rfl
theorem counterRead_essence (s : State) : counterRead s.essence = (counterRead s).essence := rfl
theorem wireLevel_essence (p : InPin) (s : State) : wireLevel p s.essence = wireLevel p s := by cases p <;> rfl

theorem waitStep_view {i : Instr} {s : State} {p : InPin} {v : Bool} {dl : Word} {pos : WaitPos} {place : WaitPos → Sub}
    {reached isExpired : State → Out} (hcur : s.cur = some i) (hplace : place = .first ∨ place = .second)
    (hr : Sees i reached) (he : Sees i isExpired) :
    view (waitStep p v dl pos place reached isExpired s.essence) =
      view (waitStep p v dl pos place reached isExpired s) := by
  cases pos with
  | read =>
    simp only [waitStep, wireLevel_essence, pinRead_essence]
    refine view_ite (fun _ => hr _ hcur) fun _ => ?_
    rcases hplace with rfl | rfl <;> exact view_next_eq rfl
  | test =>
    refine view_ite (fun _ => he (clockRead s) hcur) fun _ => ?_
    rcases hplace with rfl | rfl <;> exact view_next_eq rfl
  | sleep => rcases hplace with rfl | rfl <;> exact view_next_eq rfl

theorem edgesSince_essence {s : State} (h : ownsBase s.cur s.cfg s.sub = true) :
    s.essence.edgeCnt - s.essence.baseCnt = s.edgeCnt - s.baseCnt := by
  rw [essence_baseCnt h, essence_edgeCnt]
  bv_omega

theorem countStep_view {i : Instr} {s : State} {dl : Word} {pos : CountPos} {result : PulseResult → State → Out}
    (hcur : s.cur = some i) (hb : ownsBase s.cur s.cfg s.sub = true) (h : ∀ r, Sees i (result r)) :
    view (countStep dl pos result s.essence) = view (countStep dl pos result s) := by
  cases pos with
  | count =>
    simp only [countStep, edgesSince_essence hb, counterRead_essence]
    refine view_ite (fun _ => ?_) fun _ => view_ite (fun _ => h _ _ hcur) fun _ => h _ _ hcur
    exact view_next_eq rfl (hbase := fun _ => by simp [hb])
  | test =>
    refine view_ite (fun _ => ?_) fun _ => ?_
    · exact view_next_eq rfl (hbase := fun _ => by simp [hb])
    · exact view_next_eq rfl (hbase := fun _ => by simp [hb])
  | pin =>
    simp only [countStep, wireLevel_essence, pinRead_essence]
    exact h _ _ hcur
  | sleep => exact view_next_eq rfl (hbase := fun _ => by simp [hb])

theorem setPulse_sees {i : Instr} {k : State → Out} (h : Sees i k) (r : PulseResult) :
    Sees i fun s => k (setPulse r s) := by
  intro s hcur
  exact h.view_eq (essence_eq rfl (hbase := by simp +contextual)) hcur hcur

theorem pulseStep_view {i : Instr} {s : State} {dl : Word} {tr : Trigger} {done : PulseResult → State → Out}
    (hcur : s.cur = some i) (h : ∀ r, Sees i (done r)) :
    view (pulseStep (waiterOf i s.cfg) dl tr done s.essence) = view (pulseStep (waiterOf i s.cfg) dl tr done s) := by
  have hres : ∀ r, Sees i fun s => done r (setPulse r s) := fun r => setPulse_sees (h r) r
  have hbase : waiterOf i s.cfg = .interruptCounted → (s.sub = .trigger ∨ ∃ pos, s.sub = .count pos) →
      ownsBase s.cur s.cfg s.sub = true := by
    rintro hw (hsub | ⟨pos, hsub⟩) <;> simp [ownsBase, hcur, hsub, hw]
  unfold pulseStep
  rw [essence_sub]
  dsimp only
  split
  case h_1 => exact view_next_eq rfl (hbase := fun _ => by simp)
  case h_2 hsub => -- the trigger
    cases hw : waiterOf i s.cfg with
    | polling => cases tr <;> exact view_next_eq rfl (hbase := by simp [ownsBase, afterTrigger])
    | interruptCounted =>
      have hb := hbase hw (.inl hsub)
      cases tr <;> exact view_next_eq rfl (hbase := fun _ => by simp [runTrigger, hb])
  case h_3 => exact waitStep_view hcur (.inl rfl) (fun s _ => view_next_eq rfl) (hres _)
  case h_4 => exact waitStep_view hcur (.inr rfl) (hres _) (hres _)
  case h_5 pos hsub hw => exact countStep_view hcur (hbase hw (.inr ⟨pos, hsub⟩)) hres
  case h_6 => rfl

theorem orAbort_view {s : State} {own : State → Out} (h : view (own s.essence) = view (own s)) :
    view (orAbort s.essence own) = view (orAbort s own) := by
  unfold orAbort
  rw [essence_sub]
  split
  · exact view_next_eq rfl
  · exact view_next_eq rfl
  · exact h

/-! ## The Pro engine -/

theorem proNextCycle_sees (i : Instr) {entry : Sub} (h : entry = .start ∨ entry = .first .read) :
    Sees i (proNextCycle entry) := by
  intro s _
  refine view_ite (fun _ => ?_) (fun _ => view_next_eq rfl)
  rcases h with rfl | rfl <;> exact view_next_eq rfl

theorem proFrameDeadline_sees {i : Instr} {entry : Sub} (h : entry = .start ∨ entry = .first .read) :
    Sees i (proFrameDeadline entry) := by
  intro s hcur
  refine (proNextCycle_sees i h).view_eq (essence_eq rfl (hbase := ?_)) hcur hcur
  simp +contextual

theorem sendProStep_sees (st : JoystickState) (wait : Word) : Sees (.sendPro st wait) (sendProStep st wait) := by
  intro s hcur
  have hown : ownsFrame s.cur = true := by simp [hcur, ownsFrame, isDataPlane]
  refine orAbort_view ?_
  rw [essence_phase, essence_sub]
  split
  · exact view_next_eq rfl
  · refine view_ite (fun _ => ?_) (fun _ => view_next_eq rfl)
    rw [essence_txbuf hown]
    exact view_orRangeFault fun v => view_next_eq rfl
  · exact view_next_eq rfl
  · unfold sendProC
    rw [essence_dl hown]
    exact waitStep_view hcur (.inl rfl) (fun s _ => view_next_eq rfl) (fun s _ => view_next_eq rfl)
  · refine view_ite (fun _ => view_next_eq rfl) fun _ => ?_
    refine view_ite (fun _ => view_next_eq rfl) fun _ => ?_
    refine view_ite (fun _ => ?_) fun _ => view_next_eq rfl
    rw [essence_rxbuf hown]
    exact view_orRangeFault fun b => view_next_eq rfl
  · exact view_next_eq rfl
  · unfold sendProF
    rw [essence_dl hown]
    refine waitStep_view hcur (.inl rfl) (fun s hcur => ?_) (fun s _ => view_next_eq rfl)
    exact view_ite (fun _ => view_next_eq rfl) fun _ => proNextCycle_sees _ (.inl rfl) s hcur
  · exact proFrameDeadline_sees (.inl rfl) s hcur
  · unfold sendProDone
    rw [essence_rxbuf hown]
    exact view_orRangeFault fun r => view_next_eq rfl
  · rfl

theorem pollProStep_sees (r : ProConfig) (wait : Word) : Sees (.pollPro r wait) (pollProStep r wait) := by
  intro s hcur
  have hown : ownsFrame s.cur = true := by simp [hcur, ownsFrame, isDataPlane]
  refine orAbort_view ?_
  rw [essence_phase, essence_sub]
  split
  · exact view_next_eq rfl
  · unfold pollProA
    rw [essence_dl hown]
    exact waitStep_view hcur (.inl rfl) (fun s _ => view_next_eq rfl) (fun s _ => view_next_eq rfl)
  · refine view_ite (fun _ => ?_) (fun _ => view_next_eq rfl)
    rw [essence_rxbuf hown]
    exact view_orRangeFault fun b => view_next_eq rfl
  · unfold pollProC
    rw [essence_txbuf hown, essence_cyc]
    refine view_ite (fun _ => ?_) (fun _ => view_next_eq rfl)
    exact view_orRangeFault fun v => view_next_eq rfl
  · exact view_next_eq rfl
  · unfold pollProE
    rw [essence_dl hown]
    exact waitStep_view hcur (.inl rfl) (fun s _ => view_next_eq rfl) (fun s _ => view_next_eq rfl)
  · refine view_ite (fun _ => view_next_eq rfl) fun _ => ?_
    exact (proNextCycle_sees _ (.inr rfl)).view_eq (essence_eq rfl (hbase := by simp +contextual)) hcur hcur
  · exact proFrameDeadline_sees (.inr rfl) s hcur
  · unfold pollProDone
    rw [essence_rxbuf hown]
    exact view_orRangeFault fun r => view_next_eq rfl
  · rfl

theorem peekProStep_sees : Sees .peekPro peekProStep := by
  intro s _
  unfold peekProStep
  rw [essence_sub]
  split
  · exact view_next_eq rfl
  · exact view_next_eq rfl
  · rfl

/-! ## The Std engine -/

theorem pollStdP2Done_sees (i : Instr) (p : PulseResult) : Sees i (pollStdP2Done p) := by
  intro s _
  cases p <;> exact view_next_eq rfl

theorem pollStdP3Done_sees (i : Instr) (p : PulseResult) : Sees i (pollStdP3Done p) := by
  intro s _
  cases p with
  | finished => exact view_ite (fun _ => view_next_eq rfl) (fun _ => view_next_eq rfl)
  | started | notStarted | tooMany => exact view_next_eq rfl

theorem pollStdP4Done_sees (i : Instr) (p : PulseResult) : Sees i (pollStdP4Done p) := by
  intro s _
  cases p <;> exact view_next_eq rfl

/-- Where a wait for a pulse begins, `BASE_CNT` is not its own yet. -/
theorem ownsBase_pulseEntry {i : Instr} {c : Config} {w : Waiter} (h : waiterOf i c = w) :
    ownsBase (some i) c (pulseEntry w) = false := by
  cases w <;> simp [ownsBase, pulseEntry, h]

theorem ownsBase_pollStd_entry (r : StdConfig) (wait : Word) (c : Config) :
    ownsBase (some (.pollStd r wait)) c (pulseEntry c.waiter) = false := ownsBase_pulseEntry rfl

theorem pollStdSample_sees (r : StdConfig) (wait : Word) : Sees (.pollStd r wait) pollStdSample := by
  intro s hcur
  unfold pollStdSample
  rw [essence_rxbuf (by simp [hcur, ownsFrame, isDataPlane])]
  refine view_orRangeFault fun b => view_next_eq rfl (hbase := ?_)
  simp [hcur, ownsBase_pollStd_entry]

theorem pollStdP6_sees (r : StdConfig) (wait : Word) (n : Nat) : Sees (.pollStd r wait) (pollStdP6 n) := by
  intro s hcur
  unfold pollStdP6
  rw [essence_txbuf (by simp [hcur, ownsFrame, isDataPlane])]
  split
  · exact view_next_eq rfl
  · exact view_orRangeFault fun v => view_next_eq rfl
  · exact view_next_eq rfl
  · exact view_next_eq rfl
  · exact view_ite (fun _ => view_next_eq rfl) (fun _ => view_next_eq rfl)
  · rfl

theorem pollStdP7_sees (r : StdConfig) (wait : Word) (n : Nat) : Sees (.pollStd r wait) (pollStdP7 n) := by
  intro s hcur
  unfold pollStdP7
  rw [essence_rxbuf (by simp [hcur, ownsFrame, isDataPlane])]
  split
  · exact view_next_eq rfl
  · refine view_orRangeFault fun rec => ?_
    cases rec with
    | none =>
      simp only [pollStdEnds, drawRecord]
      exact view_next_eq rfl
    | some rec =>
      simp only [pollStdEnds]
      exact view_next_eq rfl
  · rfl

theorem pollStdStep_sees (r : StdConfig) (wait : Word) : Sees (.pollStd r wait) (pollStdStep r wait) := by
  intro s hcur
  have hown : ownsFrame s.cur = true := by simp [hcur, ownsFrame, isDataPlane]
  refine orAbort_view ?_
  rw [essence_phase, essence_sub, essence_dl hown]
  split
  · exact view_next_eq rfl
  · unfold pollStdP1
    rw [essence_dl hown]
    refine waitStep_view hcur (.inl rfl) (fun s hcur => ?_) (fun s _ => view_next_eq rfl)
    refine view_next_eq rfl (hbase := ?_)
    simp [hcur, ownsBase_pollStd_entry]
  · exact view_next_eq rfl
  · exact pulseStep_view hcur (pollStdP2Done_sees _)
  · exact pollStdSample_sees r wait s hcur
  · exact pulseStep_view hcur (pollStdP3Done_sees _)
  · exact pollStdSample_sees r wait s hcur
  · exact pulseStep_view hcur (pollStdP4Done_sees _)
  · unfold pollStdP5
    rw [essence_dl hown]
    exact waitStep_view hcur (.inl rfl) (fun s _ => view_next_eq rfl) (fun s _ => view_next_eq rfl)
  · exact pollStdP6_sees r wait _ s hcur
  · exact pollStdP6_sees r wait _ s hcur
  · exact pollStdP7_sees r wait _ s hcur
  · exact pollStdP7_sees r wait _ s hcur
  · rfl

theorem sendStdBit_sees {i : Instr} (hi : isDataPlane i = true) : Sees i sendStdBit := by
  intro s hcur
  unfold sendStdBit
  rw [essence_txbuf (by simp [hcur, ownsFrame, hi])]
  exact view_orRangeFault fun v => view_next_eq rfl

theorem pulseOut_sees {i : Instr} {after : State → Out} (h : Sees i after) (width : Word) (n : Nat) :
    Sees i (pulseOut width n after) := by
  intro s hcur
  unfold pulseOut
  split
  · exact view_next_eq rfl
  · exact view_next_eq rfl
  · exact h.view_eq (essence_eq rfl (hbase := by simp +contextual)) hcur hcur
  · rfl

theorem sendStdNextBit_sees (i : Instr) : Sees i sendStdNextBit := fun _ _ =>
  view_ite (fun _ => view_next_eq rfl) (fun _ => view_next_eq rfl)

/-- A prompt of SEND.STD: a wait for the level `REQ`, then the slot. -/
theorem sendStdPrompt_sees {i : Instr} (hi : isDataPlane i = true) (pos : WaitPos) : Sees i (sendStdPrompt pos) := by
  intro s hcur
  unfold sendStdPrompt
  rw [essence_dl (by simp [hcur, ownsFrame, hi])]
  exact waitStep_view hcur (.inl rfl) (fun s _ => view_next_eq rfl) (fun s _ => view_next_eq rfl)

theorem sendStdS5_sees {i : Instr} (hi : isDataPlane i = true) (sub : Sub) : Sees i (sendStdS5 sub) := by
  intro s hcur
  have hown : ownsFrame s.cur = true := by simp [hcur, ownsFrame, hi]
  unfold sendStdS5
  rw [essence_dl hown, essence_rxbuf hown]
  split
  · exact waitStep_view hcur (.inl rfl) (fun s _ => view_next_eq rfl) (fun s _ => view_next_eq rfl)
  · exact waitStep_view hcur (.inr rfl) (fun s _ => view_next_eq rfl) (fun s _ => view_next_eq rfl)
  · exact view_orRangeFault fun b => view_ite (fun _ => view_next_eq rfl) (fun _ => view_next_eq rfl)
  · rfl

theorem sendStdStep_sees (st : JoystickState) (wait : Word) : Sees (.sendStd st wait) (sendStdStep st wait) := by
  intro s hcur
  have hown : ownsFrame s.cur = true := by simp [hcur, ownsFrame, isDataPlane]
  refine orAbort_view ?_
  rw [essence_phase, essence_sub]
  split
  · exact view_next_eq rfl
  · unfold sendStdS1
    rw [essence_dl hown]
    exact waitStep_view hcur (.inl rfl) (fun s _ => view_next_eq rfl) (fun s _ => view_next_eq rfl)
  · exact view_next_eq rfl
  · exact sendStdBit_sees rfl s hcur
  · exact pulseOut_sees (sendStdNextBit_sees _) _ _ s hcur
  · exact sendStdPrompt_sees rfl _ s hcur
  · exact sendStdBit_sees rfl s hcur
  · exact pulseOut_sees (sendStdNextBit_sees _) _ _ s hcur
  · exact sendStdPrompt_sees rfl _ s hcur
  · exact view_next_eq rfl
  · exact pulseOut_sees (after := fun s => .next (goto .s5 0 (.first .read) s)) (fun s _ => view_next_eq rfl) _ _ s hcur
  · exact sendStdS5_sees rfl _ s hcur
  · unfold sendStdS6
    rw [essence_dl hown]
    exact waitStep_view hcur (.inl rfl) (fun s _ => view_next_eq rfl) (fun s _ => view_next_eq rfl)
  · unfold sendStdS7
    rw [essence_rxbuf hown]
    exact view_orRangeFault fun r => view_next_eq rfl
  · rfl

/-! ## Setup and the waits of HOST's own -/

theorem setupStep_sees (i : Instr) (v : Variant) (level irq : Bool) : Sees i (setupStep v level irq) := by
  intro s hcur
  unfold setupStep
  rw [essence_sub]
  split
  · exact view_next_eq rfl
  · exact view_next_eq rfl
  · exact view_next_eq rfl
  · exact view_next_eq rfl
  · exact view_next_eq rfl
  · exact view_ite (fun _ => view_next_eq rfl) (fun _ => view_next_eq rfl)
  · refine view_ite (fun _ => rfl) fun _ => ?_
    exact view_ite (fun _ => view_next_eq rfl) (fun _ => view_next_eq rfl)
  · exact view_ite (fun _ => view_next_eq rfl) (fun _ => rfl)
  · rfl

theorem waitPinStep_sees (p : InPin) (v : Bool) (dl : Word) : Sees (.waitPin p v dl) (waitPinStep p v dl) := by
  intro s hcur
  unfold waitPinStep
  rw [essence_sub]
  split
  · exact waitStep_view hcur (.inl rfl) (fun s _ => view_next_eq rfl) (fun s _ => view_next_eq rfl)
  · exact waitStep_view hcur (.inl rfl) (fun s _ => view_next_eq rfl) (fun s _ => view_next_eq rfl)
  · rfl

theorem waitPulseStep_sees {i : Instr} {w : Waiter} (hw : ∀ c, waiterOf i c = w) (dl : Word) (tr : Trigger) :
    Sees i (waitPulseStep w dl tr) := by
  have pulse : Sees i (pulseStep w dl tr fun r s => .next (finish (.pulse r) s)) := by
    intro s hcur
    rw [← hw s.cfg]
    exact pulseStep_view hcur fun r s _ => view_next_eq rfl
  intro s hcur
  unfold waitPulseStep
  rw [essence_sub]
  dsimp only
  split
  · refine pulse.view_eq (essence_eq rfl (hbase := ?_)) hcur hcur
    simp [hcur, ownsBase_pulseEntry (hw s.cfg)]
  · exact pulse s hcur

/-! ## Every operation -/

theorem turnAway_view (w : TurnAway) (s : State) :
    view (.next (turnAway w s.essence)) = view (.next (turnAway w s)) :=
  view_next_eq rfl (hbase := by simp +contextual)

theorem launch_essence {i : Instr} (hi : isDataPlane i = false) (s : State) :
    (launch i s.essence).essence = (launch i s).essence :=
  essence_eq rfl (hframe := by simp [ownsFrame, hi])

theorem Sees.view_launch {i : Instr} {own : State → Out} (h : Sees i own) (hi : isDataPlane i = false) (s : State) :
    view (own (launch i s.essence)) = view (own (launch i s)) :=
  h.view_eq (launch_essence hi s) rfl rfl

theorem oneStep_view {r : Option TurnAway} {i : Instr} {s : State} {own own' : State → Out}
    (h : view (own (launch i s.essence)) = view (own' (launch i s))) :
    view (oneStep r i s.essence own) = view (oneStep r i s own') := by
  unfold oneStep
  rw [essence_cur]
  cases s.cur with
  | some j => exact turnAway_view .busy s
  | none =>
    cases r with
    | some w => exact turnAway_view w s
    | none => exact h

theorem running_view {r : Option TurnAway} {i : Instr} {s : State} {own : State → Out}
    (hfirst : view (own (launch i s.essence)) = view (own (launch i s))) (h : Sees i own) :
    view (running r i s.essence own) = view (running r i s own) := by
  unfold running
  rw [essence_cur]
  cases hcur : s.cur with
  | none =>
    cases r with
    | some w => exact turnAway_view w s
    | none => exact hfirst
  | some j =>
    refine view_ite (fun hj => ?_) (fun _ => turnAway_view .busy s)
    refine view_ite (fun _ => h s (hj ▸ hcur)) fun _ => ?_
    exact view_next_eq rfl (hbase := by simp +contextual)

/-- At rest nothing is an operation's own. -/
theorem view_rest_eq {a b : State} (h : a.bare = b.bare) (hcur : b.cur = none) (hcalls : a.calls = b.calls) :
    view (.next a) = view (.next b) :=
  view_next_eq h (by rw [hcalls]) (by simp [hcur]) (by simp [ownsBase, hcur])

theorem Ending.apply_view (e : Ending) (i : Instr) (s : State) :
    view (.next (e.apply (launch i s.essence))) = view (.next (e.apply (launch i s))) := by
  cases e with
  | answer r => exact view_rest_eq rfl rfl rfl
  | decoded r ok => exact view_rest_eq rfl rfl rfl
  | decodedStd r => cases r <;> exact view_rest_eq rfl rfl rfl
  | time us => exact view_rest_eq rfl rfl rfl
  | expiry dl => exact view_rest_eq rfl rfl rfl

theorem exec_oneStep_view {i : Instr} (hi : isOneStep i = true) (s : State) :
    view (exec i s.essence) = view (exec i s) := by
  obtain ⟨value, -, heq⟩ := endsInOneStep hi
  rw [heq, heq]
  exact oneStep_view (view_orRangeFault fun e => e.apply_view i s)

theorem exec_edgeCb (s : State) : exec .edgeCb s =
    if 0 < s.edgePending then .next { s with edgePending := s.edgePending - 1, edgeCnt := s.edgeCnt + 1 }
    else .next s := by
  simp only [exec, execEdgeCb]
  split <;> rfl

/-- An edge counted keeps the number of edges since the snapshot what it is. -/
theorem exec_edgeCb_view (s : State) : view (exec .edgeCb s.essence) = view (exec .edgeCb s) := by
  rw [exec_edgeCb, exec_edgeCb]
  refine view_ite (fun _ => view_next_eq rfl (hbase := fun hb => ?_)) fun _ => ?_
  · have hb : ownsBase s.cur s.cfg s.sub = true := hb
    simp only [essence_baseCnt hb, essence_edgeCnt]
    bv_omega
  · exact view_next_eq rfl (hbase := by simp +contextual)

/-- No operation sees what an earlier one left stale (rules R29, R264). -/
theorem exec_view (i : Instr) (s : State) : view (exec i s.essence) = view (exec i s) := by
  cases i with
  | pollPro r w => exact running_view (view_next_eq rfl) (pollProStep_sees r w)
  | sendPro st w => exact running_view (view_next_eq rfl) (sendProStep_sees st w)
  | pollStd r w => exact running_view (view_next_eq rfl) (pollStdStep_sees r w)
  | sendStd st w => exact running_view (view_next_eq rfl) (sendStdStep_sees st w)
  | peekPro => exact running_view (peekProStep_sees.view_launch rfl s) peekProStep_sees
  | peekStd =>
    unfold exec execPeekStd
    exact oneStep_view (view_rest_eq rfl rfl rfl)
  | setupProJc => exact running_view ((setupStep_sees _ _ _ _).view_launch rfl s) (setupStep_sees _ _ _ _)
  | setupProTc => exact running_view ((setupStep_sees _ _ _ _).view_launch rfl s) (setupStep_sees _ _ _ _)
  | setupStdJc => exact running_view ((setupStep_sees _ _ _ _).view_launch rfl s) (setupStep_sees _ _ _ _)
  | setupStdTc => exact running_view ((setupStep_sees _ _ _ _).view_launch rfl s) (setupStep_sees _ _ _ _)
  | waitPin p v dl =>
    exact running_view (r := none) ((waitPinStep_sees p v dl).view_launch rfl s) (waitPinStep_sees p v dl)
  | waitPulsePoll dl tr =>
    have h := waitPulseStep_sees (i := .waitPulsePoll dl tr) (fun _ => rfl) dl tr
    exact running_view (h.view_launch rfl s) h
  | waitPulseIrq dl tr =>
    have h := waitPulseStep_sees (i := .waitPulseIrq dl tr) (fun _ => rfl) dl tr
    exact running_view (h.view_launch rfl s) h
  | edgeCb => exact exec_edgeCb_view s
  | _ => exact exec_oneStep_view rfl s

/-! ## Every turn -/

theorem call_view (code : Code) (s : State) : view (call code s.essence) = view (call code s) := by
  unfold call
  rw [essence_cur]
  split
  · exact turnAway_view _ s
  · exact turnAway_view _ s
  · cases s.cur with
    | some j => exact turnAway_view .busy s
    | none => exact exec_view _ s

theorem engineTurn_view (s : State) : view (engineTurn s.essence) = view (engineTurn s) := by
  unfold engineTurn
  rw [essence_cur]
  cases s.cur with
  | some i => exact exec_view i s
  | none => exact view_next_eq rfl (hbase := by simp +contextual)

theorem hostConstructs_view (c : Config) (s : State) :
    view (.next (hostConstructs c s.essence)) = view (.next (hostConstructs c s)) := by
  unfold hostConstructs
  by_cases hc : c.wf = true
  · rw [if_pos hc, if_pos hc]
    exact view_rest_eq rfl rfl rfl
  · rw [if_neg hc, if_neg hc]
    exact turnAway_view .notConstructible s

theorem turn_view (e : Event) (s : State) : view (turn e s.essence) = view (turn e s) := by
  cases e with
  | engine => exact engineTurn_view s
  | edgecb => exact exec_view .edgeCb s
  | peerCtl v => exact view_next_eq rfl (hbase := by simp +contextual [peerDrivesCtl])
  | peerData v => exact view_next_eq rfl (hbase := by simp +contextual [peerDrivesData])
  | clock us => exact view_next_eq rfl (hbase := by simp +contextual [clockAdvances])
  | hostArgs a => exact view_next_eq rfl (hbase := by simp +contextual [hostSets])
  | issue code => exact call_view (.op code s.args) s
  | construct c => exact hostConstructs_view c s
  | wire nbits bits => exact call_view (.wire nbits bits) s

theorem turn_view_of_essence {e : Event} {s u : State} (h : u.essence = s.essence) :
    view (turn e u) = view (turn e s) := by
  rw [← turn_view e u, ← turn_view e s, h]

theorem next_of_view_eq {o : Out} {t : State} (h : view o = view (.next t)) :
    ∃ v, o = .next v ∧ v.essence = t.essence := by
  cases o with
  | next v => exact ⟨v, rfl, by simpa [view] using h⟩
  | fault f => cases h
  | refused r => cases h


/-! ## The edge counter -/

/-- EDGECB with a pending edge: it counts the edge (rule R177). -/
def countsEdge (i : Instr) (s : State) : Bool := decide (i = .edgeCb) && decide (0 < s.edgePending)

/-- The step of SETUP.STD.JC that zeroes the counter (rule R203). -/
def zeroesCounter (i : Instr) (s : State) : Bool :=
  decide (i = .setupStdJc) && decide (s.cur = some i) && decide (s.delayLeft = 0) && decide (s.sub = .seq 6)

theorem countsEdge_of_essence {s u : State} (i : Instr) (h : u.essence = s.essence) :
    countsEdge i u = countsEdge i s := by
  have hpend : u.edgePending = s.edgePending := (congrArg State.edgePending h :)
  simp only [countsEdge, hpend]

theorem zeroesCounter_of_essence {s u : State} (i : Instr) (h : u.essence = s.essence) :
    zeroesCounter i u = zeroesCounter i s := by
  have hcur : u.cur = s.cur := (congrArg State.cur h :)
  have hdelay : u.delayLeft = s.delayLeft := (congrArg State.delayLeft h :)
  have hsub : u.sub = s.sub := (congrArg State.sub h :)
  simp only [zeroesCounter, hcur, hdelay, hsub]

theorem setupStep_edgeCnt {v : Variant} {level irq : Bool} {s t : State} (h : setupStep v level irq s = .next t) :
    t.edgeCnt = if s.sub = .seq 6 then 0 else s.edgeCnt := by
  unfold setupStep at h
  split at h
  case h_6 hsub => split at h <;> cases h <;> simp [hsub]
  case h_7 hsub =>
    split at h
    · cases h
    split at h <;> cases h <;> simp [hsub]
  case h_8 hsub =>
    split at h
    · cases h
      simp [hsub]
    · cases h
  case h_9 => cases h
  all_goals
    next hsub =>
      cases h
      simp [hsub]

theorem execSetupStdJc_edgeCnt {s t : State} (h : execSetupStdJc s = .next t) :
    t.edgeCnt = if zeroesCounter .setupStdJc s then 0 else s.edgeCnt := by
  rcases running_next h with ⟨hcur, w, -, rfl⟩ | ⟨hcur, -, h⟩ | ⟨hcur, hd, h⟩ | ⟨hcur, hd, rfl⟩ | ⟨⟨j, hcur, hj⟩, rfl⟩
  · simp [zeroesCounter, hcur]
  · rw [setupStep_edgeCnt h]
    simp [zeroesCounter, hcur]
  · rw [setupStep_edgeCnt h]
    simp [zeroesCounter, hcur, hd]
  · simp [zeroesCounter, hd]
  · simp [zeroesCounter, hcur, hj]

/-- What an operation makes of the counter. -/
theorem exec_edgeCnt {i : Instr} {s t : State} (h : exec i s = .next t) :
    t.edgeCnt = if countsEdge i s then s.edgeCnt + 1 else if zeroesCounter i s then 0 else s.edgeCnt := by
  by_cases hcb : i = .edgeCb
  · subst hcb
    rw [exec_edgeCb] at h
    split at h <;> cases h <;> simp [countsEdge, zeroesCounter, *]
  by_cases hjc : i = .setupStdJc
  · subst hjc
    simpa [countsEdge] using execSetupStdJc_edgeCnt h
  · have hkeeps : t.edgeCnt = s.edgeCnt := by
      by_contra hne
      exact ((exec_wrote h).edges (.inl hne)).elim hcb hjc
    simp [countsEdge, zeroesCounter, hcb, hjc, hkeeps]

/-- A call does not touch the counter: HOST may not issue EDGECB, and a Setup zeroes it later. -/
theorem call_edgeCnt {code : Code} {s t : State} (h : call code s = .next t) : t.edgeCnt = s.edgeCnt := by
  rcases call_next h with ⟨w, rfl⟩ | ⟨i, -, hi, hcur, h⟩
  · rfl
  · rw [exec_edgeCnt h]
    simp [countsEdge, zeroesCounter, hi, hcur]

/-- The counters of two states are alike, or apart by `d`. -/
def countsApart (d : Word) (s u : State) : Prop := u.edgeCnt = s.edgeCnt ∨ u.edgeCnt - s.edgeCnt = d

theorem exec_countsApart {d : Word} {i : Instr} {s u t v : State} (hess : u.essence = s.essence)
    (hd : countsApart d s u) (ht : exec i s = .next t) (hv : exec i u = .next v) : countsApart d t v := by
  unfold countsApart
  rw [exec_edgeCnt ht, exec_edgeCnt hv, countsEdge_of_essence i hess, zeroesCounter_of_essence i hess]
  split
  · exact hd.imp (fun h => by rw [h]) fun h => by bv_omega
  · split
    · exact .inl rfl
    · exact hd

theorem turn_countsApart {d : Word} {e : Event} {s u t v : State} (hess : u.essence = s.essence)
    (hd : countsApart d s u) (ht : turn e s = .next t) (hv : turn e u = .next v) : countsApart d t v := by
  have kept : t.edgeCnt = s.edgeCnt → v.edgeCnt = u.edgeCnt → countsApart d t v := by
    intro ht hv
    rwa [countsApart, ht, hv]
  cases e with
  | engine =>
    have hcur : u.cur = s.cur := (congrArg State.cur hess :)
    simp only [turn, engineTurn, hcur] at ht hv
    cases hi : s.cur with
    | some i =>
      rw [hi] at ht hv
      exact exec_countsApart hess hd ht hv
    | none =>
      rw [hi] at ht hv
      cases ht
      cases hv
      exact hd
  | edgecb => exact exec_countsApart (i := .edgeCb) hess hd ht hv
  | peerCtl _ | peerData _ | clock _ | hostArgs _ =>
    cases ht
    cases hv
    exact hd
  | issue code => exact kept (call_edgeCnt ht) (call_edgeCnt hv)
  | construct c =>
    cases ht
    cases hv
    unfold hostConstructs
    by_cases hc : c.wf = true
    · rw [if_pos hc, if_pos hc]
      exact .inl rfl
    · rw [if_neg hc, if_neg hc]
      exact hd
  | wire nbits bits => exact kept (call_edgeCnt ht) (call_edgeCnt hv)

/-! ## Every run -/

theorem turns_cons {e : Event} {es : List Event} {s u : State} (h : turn e s = .next u) :
    turns (e :: es) s = turns es u := by
  simp only [turns, h]

theorem turns_alike {d : Word} {es : List Event} {s u t : State} (hess : u.essence = s.essence)
    (hd : countsApart d s u) (h : turns es s = .next t) :
    ∃ v, turns es u = .next v ∧ v.essence = t.essence ∧ countsApart d t v := by
  induction es generalizing s u with
  | nil =>
    cases h
    exact ⟨u, rfl, hess, hd⟩
  | cons e es ih =>
    obtain ⟨s', hs', h⟩ := turns_cons_next h
    obtain ⟨u', hu', hess'⟩ := next_of_view_eq ((turn_view_of_essence hess).trans (congrArg view hs'))
    rw [turns_cons hu']
    exact ih hess' (turn_countsApart hess hd hs' hu') h

/-- At rest the essence is the same whatever is stale. -/
theorem essence_of_sameButStale {s u : State} (hcur : s.cur = none) (h : sameButStale s u) : u.essence = s.essence := by
  have hcalls : u.calls = s.calls := (congrArg State.calls h :)
  exact essence_eq (congrArg State.bare h :) (by rw [hcalls]) (by simp [hcur]) (by simp [ownsBase, hcur])

/-- Settles O55: two instances with one essence run alike. -/
theorem nothingCarriesOver : Obligations.NothingCarriesOver := by
  intro es s u t _ _ hrest hstale h
  obtain ⟨hcur, -⟩ := (atRest_iff s).mp hrest
  obtain ⟨v, hv, hess, hcount⟩ := turns_alike (essence_of_sameButStale hcur hstale) (.inr rfl) h
  exact ⟨v, hv, (congrArg State.calls hess :), (congrArg State.result hess :), (congrArg State.turned hess :),
    (congrArg State.failure hess :), (congrArg State.outCtl hess :), (congrArg State.outData hess :),
    (congrArg State.outState hess :), (congrArg State.outProCfg hess :), (congrArg State.outStdCfg hess :),
    (congrArg State.phase hess :), (congrArg State.cyc hess :), (congrArg State.history hess :), hcount⟩

end Sys2Proof.Machine
end

section
/-! The four wire formats (O24): an access in range answers what it reads, so a decode of a buffer that is long enough
answers the record the buffer stands for, and a wire word is laid in a buffer that is. -/

namespace Sys2Proof.Machine
open Sys2Proof.Claims

/-! ## Accesses in range -/

section
variable {buf : BitBuffer} {i s w k : Int}

theorem getBit_inRange (h : 0 ≤ i ∧ i < buf.N) : getBit buf i = .ok (rawBit buf i.toNat) := by
  simp [getBit, bitInRange, h]

theorem setBit_inRange (v : Bool) (h : 0 ≤ i ∧ i < buf.N) : setBit buf i v = .ok (rawPutBit buf i.toNat v) := by
  simp [setBit, bitInRange, h]

theorem getField_inRange (h : 0 ≤ s ∧ 1 ≤ w ∧ w ≤ 32 ∧ s + w ≤ buf.N) :
    getField buf s w = .ok (rawField buf s.toNat w.toNat) := by
  simp [getField, fieldInRange, h]

theorem getByte_inRange (h : 0 ≤ k ∧ k < byteCount buf.N) : getByte buf k = .ok (rawByte buf k.toNat) := by
  simp [getByte, byteInRange, h]

end

/-! ## Decodes of a buffer that is long enough -/

/-- The low byte of an axis and the bits above it are different bits (rules R81, R90). -/
theorem lowByte_or_high (buf : BitBuffer) (s h : Nat) : rawField buf s 8 ||| h <<< 8 = rawField buf s 8 + 256 * h := by
  have hlt : rawField buf s 8 < 2 ^ 8 := rawField_lt buf s 8
  rw [Nat.or_comm, Nat.shiftLeft_eq, Nat.mul_comm, ← Nat.two_pow_add_eq_or_of_lt hlt, Nat.add_comm]

theorem decProState_eq {cfg : Config} {buf : BitBuffer} (h : 56 ≤ buf.N) :
    decProState cfg buf = .ok (proStateOf cfg buf) := by
  unfold decProState proStateOf
  simp (disch := omega) only [getField_inRange, getBit_inRange, ← lowByte_or_high]
  rfl

theorem decProCfg_eq {cfg : Config} {buf : BitBuffer} (h : 19 ≤ buf.N) :
    decProCfg cfg.ledCode buf = .ok (proConfigOf cfg buf) := by
  unfold decProCfg
  simp (disch := omega) only [getField_inRange, getBit_inRange]
  rfl

theorem decStdCfg_eq {buf : BitBuffer} (h : 8 ≤ buf.N) : decStdCfg buf = .ok (stdConfigOf buf) := by
  unfold decStdCfg
  simp (disch := omega) only [getField_inRange, getBit_inRange]
  rfl

theorem decStdFields_eq {cfg : Config} {buf : BitBuffer} (h : 56 ≤ buf.N) :
    decStdFields cfg buf = .ok (stdStateOf cfg buf) := by
  unfold decStdFields stdStateOf
  simp (disch := omega) only [getField_inRange, getBit_inRange, ← lowByte_or_high]
  rfl

theorem checksumOf_eq {buf : BitBuffer} (h : 49 ≤ buf.N) : checksumOf buf = .ok (xorOfSeven buf) := by
  have hbytes : 7 ≤ byteCount buf.N := by unfold byteCount; omega
  unfold checksumOf
  simp (disch := omega) only [getByte_inRange]
  rfl

/-- The checksum decides whether a Std JoystickState is read (rules R95, R141). -/
theorem decStdState_eq {cfg : Config} {buf : BitBuffer} (h : 57 ≤ buf.N) :
    decStdState cfg buf = .ok (if rawByte buf 7 = xorOfSeven buf then some (stdStateOf cfg buf) else none) := by
  have hbytes : 8 ≤ byteCount buf.N := by unfold byteCount; omega
  unfold decStdState
  rw [getByte_inRange (by omega), checksumOf_eq (by omega), decStdFields_eq (by omega)]
  by_cases hsum : rawByte buf 7 = xorOfSeven buf
  · rw [if_pos hsum]
    exact if_pos hsum
  · rw [if_neg hsum]
    exact if_neg hsum

/-! ## Wire words -/

/-- Buffer bit `k` is word bit `k` (rule R60). -/
theorem rawBit_bufferOfWord {n k : Nat} (w : BitVec n) (hk : k < n) :
    rawBit (bufferOfWord n w.toNat) k = w.getLsbD k := by
  have hfits : 0 + n ≤ 8 * (zeros n).bytes.length := by
    rw [zeros_length, byteCount]
    omega
  rw [bufferOfWord, rawBit_rawPutField _ _ _ _ _ hfits, if_pos (by omega)]
  exact BitVec.testBit_toNat w

section
variable {s : State}

theorem exec_wireProState (w : BitVec 56) (h : s.cur = none) : exec (.wireProState w) s =
    .next { s.returned (.state (proStateOf s.cfg (bufferOfWord 56 w.toNat)) true) [] with ok := true } := by
  rw [exec, execWireProState, oneStep_rest h, decProState_eq (by simp)]
  rfl

theorem exec_wireProCfg (w : BitVec 19) (h : s.cur = none) : exec (.wireProCfg w) s =
    .next { s.returned (.proConfig (proConfigOf s.cfg (bufferOfWord 19 w.toNat)) true) [] with ok := true } := by
  rw [exec, execWireProCfg, oneStep_rest h, decProCfg_eq (by simp)]
  rfl

theorem exec_wireStdCfg (w : BitVec 8) (h : s.cur = none) : exec (.wireStdCfg w) s =
    .next { s.returned (.stdConfig (stdConfigOf (bufferOfWord 8 w.toNat)) true) [] with ok := true } := by
  rw [exec, execWireStdCfg, oneStep_rest h, decStdCfg_eq (by simp)]
  rfl

theorem wireStdState_decodedStd (w : BitVec 64) (h : s.cur = none) :
    decodedStd (.wireStdState w) (bufferOfWord 64 w.toNat) s := by
  have hexec : exec (.wireStdState w) s = .next (finishStdDecode
      (if rawByte (bufferOfWord 64 w.toNat) 7 = xorOfSeven (bufferOfWord 64 w.toNat) then
        some (stdStateOf s.cfg (bufferOfWord 64 w.toNat)) else none) (launch (.wireStdState w) s)) := by
    rw [exec, execWireStdState, oneStep_rest h, decStdState_eq (by simp)]
    rfl
  refine ⟨fun hsum => ?_, fun hsum => ⟨Config.freeRecord s.free, ?_⟩⟩
  · rw [hexec, if_pos hsum]
    rfl
  · rw [hexec, if_neg hsum]
    rfl

end

/-- Settles O24: the buffer is the one the word is laid in. -/
theorem wireWordsAreReadAsRecords : Obligations.WireWordsAreReadAsRecords := by
  refine ⟨?proState, ?proCfg, ?stdState, ?stdCfg⟩
  case proState => exact fun w s h => ⟨_, bufferOfWord_N _ _, fun _ => rawBit_bufferOfWord w, exec_wireProState w h⟩
  case proCfg => exact fun w s h => ⟨_, bufferOfWord_N _ _, fun _ => rawBit_bufferOfWord w, exec_wireProCfg w h⟩
  case stdState =>
    exact fun w s h => ⟨_, bufferOfWord_N _ _, fun _ => rawBit_bufferOfWord w, wireStdState_decodedStd w h⟩
  case stdCfg => exact fun w s h => ⟨_, bufferOfWord_N _ _, fun _ => rawBit_bufferOfWord w, exec_wireStdCfg w h⟩

end Sys2Proof.Machine
end

section
/-! Edges are never lost (O31): an operation moves edges from pending to counted, a falling edge of CTL_IN adds one, and
nothing but the zeroing of a Setup and a construction drops any. -/

namespace Sys2Proof.Machine

/-- The edges of CTL_IN seen since the counter was zeroed, modulo 2^32: counted and pending (rules R71, R177). -/
def State.edgesSeen (s : State) : Word := s.edgeCnt + BitVec.ofNat 32 s.edgePending

theorem edgesSeen_congr {s t : State} (hcnt : t.edgeCnt = s.edgeCnt) (hpend : t.edgePending = s.edgePending) :
    t.edgesSeen = s.edgesSeen := by rw [State.edgesSeen, State.edgesSeen, hcnt, hpend]

theorem ofNat_eq_one_add_pred {n : Nat} (h : 0 < n) : BitVec.ofNat 32 n = 1 + BitVec.ofNat 32 (n - 1) := by
  obtain ⟨m, rfl⟩ : ∃ m, n = 1 + m := ⟨n - 1, by omega⟩
  rw [BitVec.ofNat_add, Nat.add_sub_cancel_left]
  rfl

/-- EDGECB counts an edge that was pending (rule R177). -/
theorem exec_edgeCb_edgesSeen {s t : State} (h : exec .edgeCb s = .next t) : t.edgesSeen = s.edgesSeen := by
  rw [exec_edgeCb] at h
  split at h
  case isTrue hpend =>
    cases h
    rw [State.edgesSeen, State.edgesSeen, ofNat_eq_one_add_pred hpend, BitVec.add_assoc]
  case isFalse =>
    cases h
    rfl

/-- A Setup touches the edges at its seventh step only, where it zeroes the counter (rule R203). -/
theorem setupStep_edgesSeen {v : Variant} {level irq : Bool} {s t : State} (hsub : s.sub ≠ .seq 6)
    (h : setupStep v level irq s = .next t) : t.edgesSeen = s.edgesSeen := by
  unfold setupStep at h
  split at h
  case h_6 => split at h <;> cases h <;> exact edgesSeen_congr (by simp) (by simp)
  case h_7 hsub' => exact absurd hsub' hsub
  case h_8 =>
    split at h
    · cases h
      exact edgesSeen_congr (by simp) (by simp)
    · cases h
  case h_9 => cases h
  all_goals
    cases h
    exact edgesSeen_congr (by simp) (by simp)

theorem execSetupStdJc_edgesSeen {s t : State} (hsub : ¬(s.cur = some .setupStdJc ∧ s.sub = .seq 6))
    (h : execSetupStdJc s = .next t) : t.edgesSeen = s.edgesSeen := by
  rcases running_next h with ⟨-, w, -, rfl⟩ | ⟨-, -, h⟩ | ⟨hcur, -, h⟩ | ⟨-, -, rfl⟩ | ⟨-, rfl⟩
  · rfl
  · exact (setupStep_edgesSeen (by simp) h).trans rfl
  · exact setupStep_edgesSeen (fun hseq => hsub ⟨hcur, hseq⟩) h
  · rfl
  · rfl

/-- No operation loses or invents an edge, but for the zeroing step of SETUP.STD.JC. -/
theorem exec_edgesSeen {i : Instr} {s t : State}
    (hsub : i = .setupStdJc → ¬(s.cur = some .setupStdJc ∧ s.sub = .seq 6)) (h : exec i s = .next t) :
    t.edgesSeen = s.edgesSeen := by
  by_cases hcb : i = .edgeCb
  · subst hcb
    exact exec_edgeCb_edgesSeen h
  by_cases hjc : i = .setupStdJc
  · subst hjc
    exact execSetupStdJc_edgesSeen (hsub rfl) h
  · have hedges : ¬(t.edgeCnt ≠ s.edgeCnt ∨ t.edgePending ≠ s.edgePending) := fun hne =>
      ((exec_wrote h).edges hne).elim hcb hjc
    obtain ⟨hcnt, hpend⟩ : t.edgeCnt = s.edgeCnt ∧ t.edgePending = s.edgePending := by simpa using hedges
    exact edgesSeen_congr hcnt hpend

/-- A call starts an operation, and no start zeroes the counter. -/
theorem call_edgesSeen {c : Code} {s t : State} (h : call c s = .next t) : t.edgesSeen = s.edgesSeen := by
  rcases call_next h with ⟨w, rfl⟩ | ⟨i, -, -, hcur, h⟩
  · rfl
  · exact exec_edgesSeen (by simp [hcur]) h

/-- CTL_IN falls while the callback is attached: one more edge (rules R56, R177). -/
theorem peerDrivesCtl_edgesSeen (v : Bool) (s : State) : (peerDrivesCtl v s).edgesSeen =
    s.edgesSeen + (if v = false ∧ s.attached = true ∧ s.wCtlIn = true then 1 else 0) := by
  simp only [State.edgesSeen, peerDrivesCtl_edgeCnt, peerDrivesCtl_edgePending]
  by_cases hfalls : v = false ∧ s.attached = true ∧ s.wCtlIn = true
  · obtain ⟨rfl, hatt, hwire⟩ := hfalls
    simp [hatt, hwire, BitVec.ofNat_add, BitVec.add_assoc]
  · have hkeeps : ¬(s.attached && s.wCtlIn && !v) = true := by
      simp only [Bool.and_eq_true, Bool.not_eq_true']
      exact fun ⟨⟨hatt, hwire⟩, hv⟩ => hfalls ⟨hv, hatt, hwire⟩
    rw [if_neg hkeeps, if_neg hfalls]
    exact (BitVec.add_zero _).symm

/-- Settles O31: each agent's turn, by what it makes of the edges seen. -/
theorem edgesAreNeverLost : Obligations.EdgesAreNeverLost := by
  intro e s t _ h hzero hconstruct
  change t.edgesSeen = s.edgesSeen + _
  have kept : (∀ v, e ≠ .peerCtl v) → t.edgesSeen = s.edgesSeen → t.edgesSeen =
      s.edgesSeen + (if e = .peerCtl false ∧ s.attached = true ∧ s.wCtlIn = true then 1 else 0) := by
    intro he hsame
    rw [if_neg fun hfalls => he false hfalls.1, hsame]
    exact (BitVec.add_zero _).symm
  cases e with
  | engine =>
    refine kept (by simp) ?_
    rcases engineTurn_next h with ⟨i, hcur, h⟩ | ⟨-, rfl⟩
    · exact exec_edgesSeen (fun _ hseq => hzero ⟨rfl, hseq⟩) h
    · rfl
  | edgecb => exact kept (by simp) (exec_edgeCb_edgesSeen h)
  | peerCtl v =>
    cases h
    simpa using peerDrivesCtl_edgesSeen v s
  | peerData v | clock us | hostArgs a =>
    cases h
    exact kept (by simp) rfl
  | issue code => exact kept (by simp) (call_edgesSeen h)
  | construct c => exact absurd rfl (hconstruct c)
  | wire nbits bits => exact kept (by simp) (call_edgesSeen h)

end Sys2Proof.Machine
end

section
/-! ENGINE is never stuck (O51): at a place of the operation it runs, with buffers of the frame's widths, every access
is in range and every continuation answers a next state. -/

namespace Sys2Proof.Machine
open Sys2Proof.Claims

/-! ## The shared operations -/

/-- The outcome is a next state: no fault, no refusal. -/
def Answers (o : Out) : Prop := ∃ t, o = .next t

theorem answers_next (t : State) : Answers (.next t) := ⟨t, rfl⟩

theorem answers_ite {c : Prop} [Decidable c] {x y : Out} (hx : c → Answers x) (hy : ¬c → Answers y) :
    Answers (if c then x else y) := by
  split
  · exact hx ‹_›
  · exact hy ‹_›

theorem orRangeFault_answers {α : Type} {r : Except RangeInfo α} {v : α} {k : α → Out} (hr : r = .ok v)
    (hk : Answers (k v)) : Answers (orRangeFault r k) := by
  rw [hr]
  exact hk

theorem oneStep_answers {r : Option TurnAway} {i : Instr} {s : State} {own : State → Out}
    (h : Answers (own (launch i s))) : Answers (oneStep r i s own) := by
  unfold oneStep
  split
  · exact answers_next _
  · split
    · exact answers_next _
    · exact h

theorem running_answers {r : Option TurnAway} {i : Instr} {s : State} {own : State → Out}
    (hstart : Answers (own (launch i s))) (hon : s.cur = some i → Answers (own s)) : Answers (running r i s own) := by
  unfold running
  split
  · split
    · exact answers_next _
    · exact hstart
  case h_2 j hcur =>
    refine answers_ite (fun hj => ?_) (fun _ => answers_next _)
    subst hj
    exact answers_ite (fun _ => hon hcur) (fun _ => answers_next _)

theorem orAbort_answers {s : State} {own : State → Out}
    (h : (∀ code, s.sub ≠ .abortCtl code) → (∀ code, s.sub ≠ .abortData code) → Answers (own s)) :
    Answers (orAbort s own) := by
  unfold orAbort
  split
  · exact answers_next _
  · exact answers_next _
  case h_3 hctl hdata => exact h hctl hdata

theorem waitStep_answers {p : InPin} {v : Bool} {dl : Word} {pos : WaitPos} {place : WaitPos → Sub}
    {reached isExpired : State → Out} {s : State} (hr : ∀ u, Answers (reached u)) (he : ∀ u, Answers (isExpired u)) :
    Answers (waitStep p v dl pos place reached isExpired s) := by
  cases pos with
  | read => exact answers_ite (fun _ => hr _) (fun _ => answers_next _)
  | test => exact answers_ite (fun _ => he _) (fun _ => answers_next _)
  | sleep => exact answers_next _

theorem countStep_answers {dl : Word} {pos : CountPos} {result : PulseResult → State → Out} {s : State}
    (h : ∀ r u, Answers (result r u)) : Answers (countStep dl pos result s) := by
  cases pos with
  | count => exact answers_ite (fun _ => answers_next _) fun _ => answers_ite (fun _ => h _ _) (fun _ => h _ _)
  | test => exact answers_ite (fun _ => answers_next _) (fun _ => answers_next _)
  | pin => exact h _ _
  | sleep => exact answers_next _

/-- At a place of its waiter, `WaitForPulse` makes its next call (rules R173, R174). -/
theorem pulseStep_answers {w : Waiter} {dl : Word} {tr : Trigger} {done : PulseResult → State → Out} {s : State}
    (hsub : pulsePlace w s.sub = true) (h : ∀ r u, Answers (done r u)) : Answers (pulseStep w dl tr done s) := by
  unfold pulseStep
  dsimp only
  split
  case h_1 => exact answers_next _
  case h_2 => exact answers_next _
  case h_3 => exact waitStep_answers (fun _ => answers_next _) (fun _ => h _ _)
  case h_4 => exact waitStep_answers (fun _ => h _ _) (fun _ => h _ _)
  case h_5 => exact countStep_answers fun _ _ => h _ _
  case h_6 =>
    unfold pulsePlace at hsub
    split at hsub <;> simp_all

/-! ## The widths of the buffers -/

/-- The frame of this variant and role fits its buffers (rule R29). -/
theorem bufferWidths {v : Variant} {r : Role} {s : State} (hb : buffersOk s = true)
    (hc : isInstance s.cfg v r = true) :
    s.txbuf.N = txWidth { s.cfg with variant := v, role := r } ∧
      s.rxbuf.N = rxWidth { s.cfg with variant := v, role := r } := by
  obtain ⟨-, -, htx, hrx⟩ := (buffersOk_iff s).mp hb
  obtain ⟨rfl, rfl⟩ : s.cfg.variant = v ∧ s.cfg.role = r := by simpa [isInstance] using hc
  exact ⟨htx, hrx⟩

/-! ## The Pro engine -/

theorem proNextCycle_answers (entry : Sub) (s : State) : Answers (proNextCycle entry s) :=
  answers_ite (fun _ => answers_next _) (fun _ => answers_next _)

theorem sendProA_answers {s : State} (htx : s.txbuf.N = 56) : Answers (sendProA s) :=
  answers_ite (fun hcyc => orRangeFault_answers (getBit_inRange (by omega)) (answers_next _))
    (fun _ => answers_next _)

theorem sendProD_answers {s : State} (hrx : s.rxbuf.N = 19) (hcyc : s.cyc.toNat ≤ 75) : Answers (sendProD s) :=
  answers_ite (fun _ => answers_next _) fun _ =>
    answers_ite (fun _ => answers_next _) fun _ =>
      answers_ite (fun hcfg => orRangeFault_answers (setBit_inRange _ (by omega)) (answers_next _))
        (fun _ => answers_next _)

theorem sendProDone_answers {s : State} (hrx : s.rxbuf.N = 19) : Answers (sendProDone s) :=
  orRangeFault_answers (decProCfg_eq hrx.ge) (answers_next _)

/-- The places of SEND.PRO outside an abort, in the order of its labels (rule R181). -/
theorem sendProPlace_cases {s : State} (hp : sendProPlace s = true) (hctl : ∀ code, s.sub ≠ .abortCtl code)
    (hdata : ∀ code, s.sub ≠ .abortData code) :
    (s.phase = .a ∧ s.sub = .start) ∨ (s.phase = .b ∧ s.sub = .start) ∨ (s.phase = .c ∧ ∃ pos, s.sub = .first pos) ∨
      (s.phase = .d ∧ s.sub = .start) ∨ (s.phase = .e ∧ s.sub = .start) ∨
      (s.phase = .f ∧ ((∃ pos, s.sub = .first pos) ∨ s.sub = .deadline)) ∨ (s.phase = .done ∧ s.sub = .start) := by
  cases hsub : s.sub
  case abortCtl code => exact absurd hsub (hctl code)
  case abortData code => exact absurd hsub (hdata code)
  all_goals cases hph : s.phase <;> simp [sendProPlace, hph, hsub] at hp ⊢

theorem sendProStep_answers {st : JoystickState} {wait : Word} {s : State} (htx : s.txbuf.N = 56)
    (hrx : s.rxbuf.N = 19) (hcyc : s.cyc.toNat ≤ 75) (hp : sendProPlace s = true) :
    Answers (sendProStep st wait s) := by
  refine orAbort_answers fun hctl hdata => ?_
  rcases sendProPlace_cases hp hctl hdata with ⟨hph, hsub⟩ | ⟨hph, hsub⟩ | ⟨hph, pos, hsub⟩ | ⟨hph, hsub⟩ |
    ⟨hph, hsub⟩ | ⟨hph, ⟨pos, hsub⟩ | hsub⟩ | ⟨hph, hsub⟩ <;> simp only [hph, hsub]
  · -- A
    exact sendProA_answers htx
  · -- B
    exact answers_next _
  · -- C
    exact waitStep_answers (fun _ => answers_next _) (fun _ => answers_next _)
  · -- D
    exact sendProD_answers hrx hcyc
  · -- E
    exact answers_next _
  · -- F, the wait
    exact waitStep_answers
      (fun _ => answers_ite (fun _ => answers_next _) (fun _ => proNextCycle_answers _ _)) (fun _ => answers_next _)
  · -- F, the frame deadline
    exact proNextCycle_answers _ _
  · -- DONE
    exact sendProDone_answers hrx

theorem pollProB_answers {s : State} (hrx : s.rxbuf.N = 56) : Answers (pollProB s) :=
  answers_ite (fun hcyc => orRangeFault_answers (setBit_inRange _ (by omega)) (answers_next _))
    (fun _ => answers_next _)

theorem pollProC_answers {s : State} (htx : s.txbuf.N = 19) (hcyc : s.cyc.toNat ≤ 75) : Answers (pollProC s) :=
  answers_ite (fun hcfg => orRangeFault_answers (getBit_inRange (by omega)) (answers_next _))
    (fun _ => answers_next _)

theorem pollProDone_answers {s : State} (hrx : s.rxbuf.N = 56) : Answers (pollProDone s) :=
  orRangeFault_answers (decProState_eq hrx.ge) (answers_next _)

/-- The places of POLL.PRO outside an abort (rule R182). -/
theorem pollProPlace_cases {s : State} (hp : pollProPlace s = true) (hctl : ∀ code, s.sub ≠ .abortCtl code)
    (hdata : ∀ code, s.sub ≠ .abortData code) :
    (s.phase = .a ∧ ∃ pos, s.sub = .first pos) ∨ (s.phase = .b ∧ s.sub = .start) ∨ (s.phase = .c ∧ s.sub = .start) ∨
      (s.phase = .d ∧ s.sub = .start) ∨ (s.phase = .e ∧ ∃ pos, s.sub = .first pos) ∨
      (s.phase = .f ∧ (s.sub = .start ∨ s.sub = .deadline)) ∨ (s.phase = .done ∧ s.sub = .start) := by
  cases hsub : s.sub
  case abortCtl code => exact absurd hsub (hctl code)
  case abortData code => exact absurd hsub (hdata code)
  all_goals cases hph : s.phase <;> simp [pollProPlace, hph, hsub] at hp ⊢

theorem pollProStep_answers {r : ProConfig} {wait : Word} {s : State} (htx : s.txbuf.N = 19)
    (hrx : s.rxbuf.N = 56) (hcyc : s.cyc.toNat ≤ 75) (hp : pollProPlace s = true) :
    Answers (pollProStep r wait s) := by
  refine orAbort_answers fun hctl hdata => ?_
  rcases pollProPlace_cases hp hctl hdata with ⟨hph, pos, hsub⟩ | ⟨hph, hsub⟩ | ⟨hph, hsub⟩ | ⟨hph, hsub⟩ |
    ⟨hph, pos, hsub⟩ | ⟨hph, hsub | hsub⟩ | ⟨hph, hsub⟩ <;> simp only [hph, hsub]
  · -- A
    exact waitStep_answers (fun _ => answers_next _) (fun _ => answers_next _)
  · -- B
    exact pollProB_answers hrx
  · -- C
    exact pollProC_answers htx hcyc
  · -- D
    exact answers_next _
  · -- E
    exact waitStep_answers (fun _ => answers_next _) (fun _ => answers_next _)
  · -- F
    exact answers_ite (fun _ => answers_next _) (fun _ => proNextCycle_answers _ _)
  · -- F, the frame deadline
    exact proNextCycle_answers _ _
  · -- DONE
    exact pollProDone_answers hrx

theorem peekProStep_answers {s : State} (hsub : s.sub = .start ∨ ∃ ctl, s.sub = .peeked ctl) :
    Answers (peekProStep s) := by
  unfold peekProStep
  rcases hsub with hsub | ⟨ctl, hsub⟩ <;> simp only [hsub] <;> exact answers_next _

/-! ## The Std engine -/

theorem pollStdP2Done_answers (r : PulseResult) (s : State) : Answers (pollStdP2Done r s) := by
  cases r <;> exact answers_next _

theorem pollStdP3Done_answers (r : PulseResult) (s : State) : Answers (pollStdP3Done r s) := by
  cases r with
  | finished => exact answers_ite (fun _ => answers_next _) (fun _ => answers_next _)
  | started | notStarted | tooMany => exact answers_next _

theorem pollStdP4Done_answers (r : PulseResult) (s : State) : Answers (pollStdP4Done r s) := by
  cases r <;> exact answers_next _

theorem pollStdSample_answers {s : State} (hrx : s.rxbuf.N = 64) (hcyc : s.cyc.toNat ≤ 63) :
    Answers (pollStdSample s) :=
  orRangeFault_answers (setBit_inRange _ (by omega)) (answers_next _)

theorem pollStdP6_answers {s : State} (htx : s.txbuf.N = 8) (hcyc : s.cyc.toNat ≤ 7) :
    ∀ n ≤ 4, Answers (pollStdP6 n s)
  | 0, _ => answers_next _
  | 1, _ => orRangeFault_answers (getBit_inRange (by omega)) (answers_next _)
  | 2, _ => answers_next _
  | 3, _ => answers_next _
  | 4, _ => answers_ite (fun _ => answers_next _) (fun _ => answers_next _)
  | _ + 5, hn => by omega

theorem pollStdP7_answers {s : State} (hrx : s.rxbuf.N = 64) : ∀ n ≤ 1, Answers (pollStdP7 n s)
  | 0, _ => answers_next _
  | 1, _ => orRangeFault_answers (decStdState_eq (by omega)) (answers_next _)
  | _ + 2, hn => by omega

/-- The places of POLL.STD outside an abort, with their cycles (rule R201). -/
theorem pollStdPlace_cases {s : State} (hp : pollStdPlace s = true) (hctl : ∀ code, s.sub ≠ .abortCtl code)
    (hdata : ∀ code, s.sub ≠ .abortData code) :
    (s.phase = .p1 ∧ ∃ pos, s.sub = .first pos) ∨
      (s.phase = .p2 ∧ (s.sub = .deadline ∨ pulsePlace s.cfg.waiter s.sub = true)) ∨
      (s.phase = .p3 ∧ s.cyc.toNat ≤ 63 ∧ (s.sub = .start ∨ pulsePlace s.cfg.waiter s.sub = true)) ∨
      (s.phase = .p4 ∧ s.cyc.toNat ≤ 63 ∧ (s.sub = .start ∨ pulsePlace s.cfg.waiter s.sub = true)) ∨
      (s.phase = .p5 ∧ ∃ pos, s.sub = .first pos) ∨
      (s.phase = .p6 ∧ s.cyc.toNat ≤ 7 ∧ (s.sub = .start ∨ ∃ n ≤ 4, s.sub = .seq n)) ∨
      (s.phase = .p7 ∧ (s.sub = .start ∨ ∃ n ≤ 1, s.sub = .seq n)) := by
  cases hsub : s.sub
  case abortCtl code => exact absurd hsub (hctl code)
  case abortData code => exact absurd hsub (hdata code)
  all_goals cases hph : s.phase <;> simp [pollStdPlace, hph, hsub] at hp ⊢
  all_goals grind

theorem pollStdStep_answers {r : StdConfig} {wait : Word} {s : State} (htx : s.txbuf.N = 8)
    (hrx : s.rxbuf.N = 64) (hp : pollStdPlace s = true) : Answers (pollStdStep r wait s) := by
  refine orAbort_answers fun hctl hdata => ?_
  have hplace := pollStdPlace_cases hp hctl hdata
  split
  case h_1 => exact answers_next _
  case h_2 => exact waitStep_answers (fun _ => answers_next _) (fun _ => answers_next _)
  case h_3 => exact answers_next _
  case h_4 hph hsub => -- P2
    have hsub' : s.sub = .deadline ∨ pulsePlace s.cfg.waiter s.sub = true := by simpa [hph] using hplace
    exact pulseStep_answers (hsub'.resolve_left hsub) pollStdP2Done_answers
  case h_5 hph hsub => -- P3, the sample
    exact pollStdSample_answers hrx (by simpa [hph, hsub] using hplace)
  case h_6 hph hsub => -- P3
    obtain ⟨-, hsub'⟩ : s.cyc.toNat ≤ 63 ∧ (s.sub = .start ∨ pulsePlace s.cfg.waiter s.sub = true) := by
      simpa [hph] using hplace
    exact pulseStep_answers (hsub'.resolve_left hsub) pollStdP3Done_answers
  case h_7 hph hsub => -- P4, the sample
    exact pollStdSample_answers hrx (by simpa [hph, hsub] using hplace)
  case h_8 hph hsub => -- P4
    obtain ⟨-, hsub'⟩ : s.cyc.toNat ≤ 63 ∧ (s.sub = .start ∨ pulsePlace s.cfg.waiter s.sub = true) := by
      simpa [hph] using hplace
    exact pulseStep_answers (hsub'.resolve_left hsub) pollStdP4Done_answers
  case h_9 => exact waitStep_answers (fun _ => answers_next _) (fun _ => answers_next _)
  case h_10 hph hsub => exact pollStdP6_answers htx (by simpa [hph, hsub] using hplace) 0 (by decide)
  case h_11 n hph hsub =>
    obtain ⟨hcyc, hn⟩ : s.cyc.toNat ≤ 7 ∧ n ≤ 4 := by simpa [hph, hsub] using hplace
    exact pollStdP6_answers htx hcyc n hn
  case h_12 => exact pollStdP7_answers hrx 0 (by decide)
  case h_13 n hph hsub => exact pollStdP7_answers hrx n (by simpa [hph, hsub] using hplace)
  case h_14 =>
    grind

/-- A pulse of SEND.STD, from its second call on (rule R206). -/
theorem pulseOut_answers {width : Word} {after : State → Out} {s : State} (hafter : ∀ u, Answers (after u)) :
    ∀ n, 1 ≤ n → n ≤ 3 → Answers (pulseOut width n after s)
  | 0, hpos, _ => by omega
  | 1, _, _ => answers_next _
  | 2, _, _ => answers_next _
  | 3, _, _ => hafter _
  | _ + 4, _, hn => by omega

theorem sendStdBit_answers {s : State} (htx : s.txbuf.N = 64) (hcyc : s.cyc.toNat ≤ 63) : Answers (sendStdBit s) :=
  orRangeFault_answers (getBit_inRange (by omega)) (answers_next _)

theorem sendStdNextBit_answers (s : State) : Answers (sendStdNextBit s) :=
  answers_ite (fun _ => answers_next _) (fun _ => answers_next _)

theorem sendStdPrompt_answers (pos : WaitPos) (s : State) : Answers (sendStdPrompt pos s) :=
  waitStep_answers (fun _ => answers_next _) (fun _ => answers_next _)

theorem sendStdS5_answers {s : State} {sub : Sub} (hrx : s.rxbuf.N = 8) (hcyc : s.cyc.toNat ≤ 7)
    (hsub : (∃ pos, sub = .first pos) ∨ (∃ pos, sub = .second pos) ∨ sub = .start) :
    Answers (sendStdS5 sub s) := by
  rcases hsub with ⟨pos, rfl⟩ | ⟨pos, rfl⟩ | rfl
  · exact waitStep_answers (fun _ => answers_next _) (fun _ => answers_next _)
  · exact waitStep_answers (fun _ => answers_next _) (fun _ => answers_next _)
  · exact orRangeFault_answers (setBit_inRange _ (by omega))
      (answers_ite (fun _ => answers_next _) (fun _ => answers_next _))

theorem sendStdS7_answers {s : State} (hrx : s.rxbuf.N = 8) : Answers (sendStdS7 s) :=
  orRangeFault_answers (decStdCfg_eq hrx.ge) (answers_next _)

/-- The places of SEND.STD outside an abort, with their cycles (rule R202). -/
theorem sendStdPlace_cases {s : State} (hp : sendStdPlace s = true) (hctl : ∀ code, s.sub ≠ .abortCtl code)
    (hdata : ∀ code, s.sub ≠ .abortData code) :
    (s.phase = .s1 ∧ ((∃ pos, s.sub = .first pos) ∨ s.sub = .deadline)) ∨
      (s.phase = .s2 ∧ s.cyc.toNat ≤ 63 ∧ ∃ n ≤ 3, s.sub = .seq n) ∨
      (s.phase = .s3 ∧ s.cyc.toNat ≤ 63 ∧ ((∃ pos, s.sub = .first pos) ∨ ∃ n ≤ 3, s.sub = .seq n)) ∨
      (s.phase = .s4 ∧ ((∃ pos, s.sub = .first pos) ∨ ∃ n ≤ 3, s.sub = .seq n)) ∨
      (s.phase = .s5 ∧ s.cyc.toNat ≤ 7 ∧
        ((∃ pos, s.sub = .first pos) ∨ (∃ pos, s.sub = .second pos) ∨ s.sub = .start)) ∨
      (s.phase = .s6 ∧ ∃ pos, s.sub = .first pos) ∨ (s.phase = .s7 ∧ s.sub = .start) := by
  cases hsub : s.sub
  case abortCtl code => exact absurd hsub (hctl code)
  case abortData code => exact absurd hsub (hdata code)
  all_goals cases hph : s.phase <;> simp [sendStdPlace, slotPlace, hph, hsub] at hp ⊢
  all_goals grind

theorem sendStdStep_answers {st : JoystickState} {wait : Word} {s : State} (htx : s.txbuf.N = 64)
    (hrx : s.rxbuf.N = 8) (hp : sendStdPlace s = true) : Answers (sendStdStep st wait s) := by
  refine orAbort_answers fun hctl hdata => ?_
  have hplace := sendStdPlace_cases hp hctl hdata
  split
  case h_1 => exact answers_next _
  case h_2 => exact waitStep_answers (fun _ => answers_next _) (fun _ => answers_next _)
  case h_3 => exact answers_next _
  case h_4 hph hsub => exact sendStdBit_answers htx (by simpa [hph, hsub] using hplace)
  case h_5 n hne hph hsub => -- S2, the pulse
    obtain ⟨-, hn⟩ : s.cyc.toNat ≤ 63 ∧ n ≤ 3 := by simpa [hph, hsub] using hplace
    exact pulseOut_answers sendStdNextBit_answers n (Nat.one_le_iff_ne_zero.mpr hne) hn
  case h_6 => exact sendStdPrompt_answers _ _
  case h_7 hph hsub => exact sendStdBit_answers htx (by simpa [hph, hsub] using hplace)
  case h_8 n hne hph hsub => -- S3, the pulse
    obtain ⟨-, hn⟩ : s.cyc.toNat ≤ 63 ∧ n ≤ 3 := by simpa [hph, hsub] using hplace
    exact pulseOut_answers sendStdNextBit_answers n (Nat.one_le_iff_ne_zero.mpr hne) hn
  case h_9 => exact sendStdPrompt_answers _ _
  case h_10 => exact answers_next _
  case h_11 n hne hph hsub => -- S4, the longer pulse
    have hn : n ≤ 3 := by simpa [hph, hsub] using hplace
    exact pulseOut_answers (fun _ => answers_next _) n (Nat.one_le_iff_ne_zero.mpr hne) hn
  case h_12 hph =>
    obtain ⟨hcyc, hsub⟩ := by simpa [hph] using hplace
    exact sendStdS5_answers hrx hcyc hsub
  case h_13 => exact waitStep_answers (fun _ => answers_next _) (fun _ => answers_next _)
  case h_14 => exact sendStdS7_answers hrx
  case h_15 =>
    grind

/-! ## Setup and the waits of HOST's own -/

/-- At each of its places a Setup makes its next call (rules R183, R203, R204). -/
theorem setupStep_answers {v : Variant} {level irq : Bool} {s : State}
    (hp : s.sub = .start ∨ setupPlace irq s = true) : Answers (setupStep v level irq s) := by
  have hplace : s.sub = .start ∨ ∃ n, s.sub = .seq n ∧ 1 ≤ n ∧ n ≤ 7 ∧ (irq = true ∨ n ≤ 5) := by
    refine hp.imp_right fun hp => ?_
    obtain ⟨-, n, hsub, hpos, hle, hirq, -⟩ := (setupPlace_iff irq s).mp hp
    exact ⟨n, hsub, hpos, hle, hirq⟩
  unfold setupStep
  split
  case h_6 => exact answers_ite (fun _ => answers_next _) (fun _ => answers_next _)
  case h_7 hsub => -- the counter
    have hirq : irq = true := by simpa [hsub] using hplace
    rw [if_neg (by simp [hirq])]
    exact answers_ite (fun _ => answers_next _) (fun _ => answers_next _)
  case h_8 hsub => -- the callback
    have hirq : irq = true := by simpa [hsub] using hplace
    rw [if_pos hirq]
    exact answers_next _
  case h_9 => grind
  all_goals exact answers_next _

theorem waitPinStep_answers {p : InPin} {v : Bool} {dl : Word} {s : State}
    (hsub : s.sub = .start ∨ ∃ pos, s.sub = .first pos) : Answers (waitPinStep p v dl s) := by
  unfold waitPinStep
  rcases hsub with hsub | ⟨pos, hsub⟩
  · simp only [hsub]
    exact waitStep_answers (fun _ => answers_next _) (fun _ => answers_next _)
  · simp only [hsub]
    exact waitStep_answers (fun _ => answers_next _) (fun _ => answers_next _)

theorem waitPulseStep_answers {w : Waiter} {dl : Word} {tr : Trigger} {s : State}
    (hsub : s.sub = .start ∨ pulsePlace w s.sub = true) : Answers (waitPulseStep w dl tr s) := by
  unfold waitPulseStep
  split
  case h_1 => exact pulseStep_answers (pulsePlace_pulseEntry w) fun _ _ => answers_next _
  case h_2 hstart => exact pulseStep_answers (hsub.resolve_left hstart) fun _ _ => answers_next _

/-! ## Every operation -/

/-- A data-plane operation encodes and reads the clock at its start; a running one stands at one of its places. -/
theorem exec_frame_answers {i : Instr} {s : State} (hi : isDataPlane i = true) (hs : s.inv = true) :
    Answers (exec i s) := by
  obtain ⟨hb, hcyc, hp, -, -⟩ := (State.inv_iff s).mp hs
  cases i with
  | pollPro r wait =>
    refine running_answers (answers_next _) fun hcur => ?_
    obtain ⟨hr, -, hp⟩ := (placeOk_frame hi hcur).mp hp
    obtain ⟨htx, hrx⟩ := bufferWidths hb (isInstance_of_planeRefusal hr).1
    exact pollProStep_answers htx hrx hcyc hp
  | sendPro st wait =>
    refine running_answers (answers_next _) fun hcur => ?_
    obtain ⟨hr, -, hp⟩ := (placeOk_frame hi hcur).mp hp
    obtain ⟨htx, hrx⟩ := bufferWidths hb (isInstance_of_planeRefusal hr).1
    exact sendProStep_answers htx hrx hcyc hp
  | pollStd r wait =>
    refine running_answers (answers_next _) fun hcur => ?_
    obtain ⟨hr, -, hp⟩ := (placeOk_frame hi hcur).mp hp
    obtain ⟨htx, hrx⟩ := bufferWidths hb (isInstance_of_planeRefusal hr).1
    exact pollStdStep_answers htx hrx hp
  | sendStd st wait =>
    refine running_answers (answers_next _) fun hcur => ?_
    obtain ⟨hr, -, hp⟩ := (placeOk_frame hi hcur).mp hp
    obtain ⟨htx, hrx⟩ := bufferWidths hb (isInstance_of_planeRefusal hr).1
    exact sendStdStep_answers htx hrx hp
  | _ => cases hi

theorem execPeekPro_answers {s : State} (hp : placeOk s = true) : Answers (execPeekPro s) := by
  refine running_answers (peekProStep_answers (.inl rfl)) fun hcur => peekProStep_answers (.inr ?_)
  obtain ⟨-, hsub⟩ := by simpa [placeOk, hcur] using hp
  cases h : s.sub with
  | peeked ctl => exact ⟨ctl, rfl⟩
  | _ => simp [h] at hsub

theorem execWaitPin_answers {p : InPin} {v : Bool} {dl : Word} {s : State} (hp : placeOk s = true) :
    Answers (execWaitPin p v dl s) := by
  refine running_answers (waitPinStep_answers (.inl rfl)) fun hcur => waitPinStep_answers (.inr ?_)
  obtain ⟨-, hsub⟩ := by simpa [placeOk, hcur] using hp
  cases h : s.sub with
  | first pos => exact ⟨pos, rfl⟩
  | _ => simp [h] at hsub

/-- A wire word is laid in a buffer of its format's width, which its decode does not leave (rule R60). -/
theorem exec_oneStep_answers {i : Instr} (hi : isOneStep i = true) (hbuf : takesHostBuffer i = false) (s : State) :
    Answers (exec i s) := by
  unfold exec
  cases i with
  | bbZero | encProState | encProCfg | encStdState | encStdCfg | deadline | expired =>
    refine oneStep_answers ?_
    exact answers_next _
  | wireProState w =>
    refine oneStep_answers ?_
    exact orRangeFault_answers (decProState_eq (bufferOfWord_N 56 _).ge) (answers_next _)
  | wireProCfg w =>
    refine oneStep_answers ?_
    exact orRangeFault_answers (decProCfg_eq (bufferOfWord_N 19 _).ge) (answers_next _)
  | wireStdState w =>
    refine oneStep_answers ?_
    exact orRangeFault_answers (decStdState_eq (by simp)) (answers_next _)
  | wireStdCfg w =>
    refine oneStep_answers ?_
    exact orRangeFault_answers (decStdCfg_eq (bufferOfWord_N 8 _).ge) (answers_next _)
  | bbGetBit | bbSetBit | bbGetField | bbSetField | bbGetByte | bbSetByte => cases hbuf
  | decProState | decProCfg | decStdState | decStdCfg | checksum => cases hbuf
  | _ => cases hi

theorem execPeekStd_answers (s : State) : Answers (execPeekStd s) := by
  refine oneStep_answers ?_
  exact answers_next _

/-- Settles O51: an operation that is turned away or starts answers, and one that runs stands at one of its places. -/
theorem engineNeverLeavesRange : Obligations.EngineNeverLeavesRange := by
  intro i s hs hbuf
  obtain ⟨-, -, hp, -, -⟩ := (State.inv_iff s).mp hs
  change Answers (exec i s)
  cases i with
  | edgeCb => exact answers_next _
  | waitPin p v dl => exact execWaitPin_answers hp
  | waitPulsePoll | waitPulseIrq =>
    refine running_answers (waitPulseStep_answers (.inl rfl)) fun hcur => waitPulseStep_answers (.inr ?_)
    simp_all [placeOk]
  | setupProJc | setupProTc | setupStdJc | setupStdTc =>
    refine running_answers (setupStep_answers (.inl rfl)) fun hcur => setupStep_answers (.inr ?_)
    simp_all [placeOk]
  | peekPro => exact execPeekPro_answers hp
  | peekStd => exact execPeekStd_answers s
  | pollPro | sendPro | pollStd | sendStd => exact exec_frame_answers rfl hs
  | _ => exact exec_oneStep_answers rfl hbuf s

end Sys2Proof.Machine
end

section
/-! The decoder and the encoder (O46, O47): a code selects what its row of rule R102 names if the operands are well
formed, a wire word what its width names, and a code without a row selects nothing. -/

namespace Sys2Proof

/-! ## What the decoder answers -/

theorem decode_of_decodeOp {code : Byte} {a : Args} {i : Instr} (h : decodeOp code.toNat a = some i)
    (hi : i.wellFormed = true) : decode (.op code a) = .ok i := by
  simp only [decode, h, hi, if_true]

theorem decode_of_decodeOp_none {code : Byte} {a : Args} (h : decodeOp code.toNat a = none) :
    decode (.op code a) = .error (.unknownOp code) := by
  simp only [decode, h]

theorem decode_of_decodeWire {nbits bits : Nat} {i : Instr} (h : decodeWire nbits bits = some i) :
    decode (.wire nbits bits) = .ok i := by
  simp only [decode, h]

/-! ## Decoding what was encoded -/

/-- Settles O46: an operation's code selects its own row, which reads each operand where the encoder put it; a wire word
of the format's own width is read back whole. -/
theorem decodeInvertsEncode : Obligations.DecodeInvertsEncode := by
  intro i hi
  cases i with
  | wireProState | wireProCfg | wireStdState | wireStdCfg => exact decode_of_decodeWire (by simp [decodeWire])
  | _ => exact decode_of_decodeOp rfl hi

/-! ## The table -/

/-- The 32 codes of rule R102. -/
def tableOps : List Nat :=
  [0x00, 0x01, 0x02, 0x03, 0x04, 0x05, 0x06, 0x10, 0x11, 0x12, 0x13, 0x20, 0x21, 0x22, 0x23, 0x24, 0x30, 0x31, 0x32,
    0x40, 0x41, 0x42, 0x50, 0x51, 0x52, 0x53, 0x54, 0x60, 0x61, 0x62, 0x63, 0x64]

theorem decodeOp_eq_none {code : Nat} (h : code ∉ tableOps) (a : Args) : decodeOp code a = none := by
  unfold decodeOp
  split
  case h_33 => rfl
  all_goals exact absurd (by decide) h

/-- Settles O47: each row is well formed once its length and its buffer are, and no other code has a row. -/
theorem opcodeTableIsFollowed : Obligations.OpcodeTableIsFollowed := by
  refine ⟨fun a => ⟨?zero, ?buffers, ?others⟩, ?words, ?outside⟩
  case zero =>
    intro hpos hle
    exact decode_of_decodeOp rfl (by simp [Instr.wellFormed, hpos, hle])
  case buffers =>
    intro hbuf
    and_intros
    all_goals exact decode_of_decodeOp rfl hbuf
  case others =>
    and_intros
    all_goals exact decode_of_decodeOp rfl rfl
  case words => decide
  case outside =>
    intro code a hcode
    exact decode_of_decodeOp_none (decodeOp_eq_none hcode a)

end Sys2Proof
end

section
/-! Calls that are turned away (O43): why each operation is turned away while nothing runs, said once, and what each
reason takes. -/

namespace Sys2Proof.Machine
open Sys2Proof.Claims

/-! ## The reasons -/

section
variable {s : State} {v : Variant} {r : Role}

theorem variant_of_isInstance (h : isInstance s.cfg v r = true) : s.cfg.variant = v := by
  obtain ⟨hv, -⟩ := by simpa [isInstance] using h
  exact hv

theorem setupRefusal_of_other (h : isInstance s.cfg v r = false) : setupRefusal v r s = some .notAccepted := by
  simp [setupRefusal, h]

theorem setupRefusal_of_strict (h : isInstance s.cfg v r = true) (hv : s.cfg.variant = .std)
    (hstrict : s.cfg.stdStrict = true) : setupRefusal v r s = some .strictStd := by
  obtain rfl : v = .std := (variant_of_isInstance h).symm.trans hv
  simp [setupRefusal, h, hstrict]

theorem setupRefusal_eq_none (h : isInstance s.cfg v r = true)
    (hstrict : s.cfg.variant = .std → s.cfg.stdStrict = false) : setupRefusal v r s = none := by
  obtain rfl := variant_of_isInstance h
  simpa [setupRefusal, h] using hstrict

theorem planeRefusal_of_setupRefusal {w : TurnAway} (h : setupRefusal v r s = some w) :
    planeRefusal v r s = some w := by
  simp only [planeRefusal, h]

theorem planeRefusal_before_setup (h : setupRefusal v r s = none) (hd : s.setupDone = false) :
    planeRefusal v r s = some .notSetUp := by
  simp [planeRefusal, h, hd]

theorem waiterRefusal_of_setupRefusal {k : Waiter} {w : TurnAway}
    (h : setupRefusal .std .joystickClient s = some w) : waiterRefusal k s = some w := by
  simp only [waiterRefusal, h]

/-- Without STD_STRICT it does not matter which of variant, role and waiter is another one (rule R103). -/
theorem waiterRefusal_of_other {k : Waiter}
    (h : (isInstance s.cfg .std .joystickClient && decide (s.cfg.waiter = k)) = false)
    (hstrict : s.cfg.stdStrict = false) : waiterRefusal k s = some .notAccepted := by
  cases hinst : isInstance s.cfg .std .joystickClient with
  | false => exact waiterRefusal_of_setupRefusal (setupRefusal_of_other hinst)
  | true =>
    have hwaiter : s.cfg.waiter ≠ k := by simpa [hinst] using h
    simp [waiterRefusal, setupRefusal_eq_none hinst fun _ => hstrict, hwaiter]

end

/-! ## Why an operation is turned away -/

/-- Why an operation is turned away while nothing runs, if it is (rules R103, R208, R263). -/
def refusalOf (i : Instr) (s : State) : Option TurnAway :=
  match i with
  | .setupProJc => setupRefusal .pro .joystickClient s
  | .setupProTc => setupRefusal .pro .throttleClient s
  | .setupStdJc => setupRefusal .std .joystickClient s
  | .setupStdTc => setupRefusal .std .throttleClient s
  | .peekPro => planeRefusal .pro .throttleClient s
  | .peekStd => planeRefusal .std .throttleClient s
  | .waitPulsePoll _ _ => waiterRefusal .polling s
  | .waitPulseIrq _ _ => waiterRefusal .interruptCounted s
  | i => frameRefusal i s

/-- Every operation but the callback has one of the two shapes of a meaning. -/
theorem exec_shape {i : Instr} (hi : i ≠ .edgeCb) (s : State) :
    ∃ own, exec i s = oneStep (refusalOf i s) i s own ∨ exec i s = running (refusalOf i s) i s own := by
  have hone : isOneStep i = true → EndsInOneStep i := endsInOneStep
  cases i with
  | edgeCb => exact absurd rfl hi
  | setupProJc | setupProTc | setupStdJc | setupStdTc | pollPro | sendPro | pollStd | sendStd
  | waitPin | waitPulsePoll | waitPulseIrq | peekPro => exact ⟨_, .inr rfl⟩
  | peekStd =>
    unfold exec execPeekStd
    exact ⟨_, .inl rfl⟩
  | _ =>
    obtain ⟨value, -, h⟩ := hone rfl
    exact ⟨_, .inl (h s)⟩

/-- The callback has no reason to be turned away: it runs whatever else does (rule R177). -/
theorem ne_edgeCb_of_refusalOf {i : Instr} {s : State} {w : TurnAway} (h : refusalOf i s = some w) : i ≠ .edgeCb := by
  rintro rfl
  cases h

theorem exec_of_refusalOf {i : Instr} {s : State} {w : TurnAway} (hcur : s.cur = none)
    (h : refusalOf i s = some w) : exec i s = .next (turnAway w s) := by
  obtain ⟨own, heq | heq⟩ := exec_shape (ne_edgeCb_of_refusalOf h) s
  · simp only [heq, oneStep, hcur, h]
  · simp only [heq, running, hcur, h]

/-- One operation at a time (rules R76, R265). -/
theorem exec_while_other_runs {i j : Instr} {s : State} (hcur : s.cur = some j) (hne : j ≠ i) (hi : i ≠ .edgeCb) :
    exec i s = .next (turnAway .busy s) := by
  obtain ⟨own, heq | heq⟩ := exec_shape hi s
  · simp only [heq, oneStep, hcur]
  · simp only [heq, running, hcur, if_neg hne]

/-! ## Which operations have which reason -/

theorem refusalOf_not_accepted {i : Instr} {s : State} (h : acceptedBy s.cfg i = false)
    (hpulse : s.cfg.stdStrict = false ∨ isWaitPulse i = false) : refusalOf i s = some .notAccepted := by
  cases i with
  | setupProJc | setupProTc | setupStdJc | setupStdTc => exact setupRefusal_of_other h
  | pollPro | sendPro | pollStd | sendStd | peekPro | peekStd =>
    exact planeRefusal_of_setupRefusal (setupRefusal_of_other h)
  | waitPulsePoll | waitPulseIrq => exact waiterRefusal_of_other h (hpulse.resolve_right (by simp [isWaitPulse]))
  | _ => cases h

theorem refusalOf_before_setup {i : Instr} {s : State} (h : acceptedBy s.cfg i = true) (hi : needsSetup i = true)
    (hstrict : s.cfg.variant = .std → s.cfg.stdStrict = false) (hd : s.setupDone = false) :
    refusalOf i s = some .notSetUp := by
  cases i with
  | pollPro | sendPro | pollStd | sendStd | peekPro | peekStd =>
    exact planeRefusal_before_setup (setupRefusal_eq_none h hstrict) hd
  | _ => cases hi

theorem refusalOf_strict {i : Instr} {s : State} (h : acceptedBy s.cfg i = true)
    (hi : (needsSetup i || isSetup i || isWaitPulse i) = true) (hv : s.cfg.variant = .std)
    (hstrict : s.cfg.stdStrict = true) : refusalOf i s = some .strictStd := by
  cases i with
  | setupProJc | setupProTc | setupStdJc | setupStdTc => exact setupRefusal_of_strict h hv hstrict
  | pollPro | sendPro | pollStd | sendStd | peekPro | peekStd =>
    exact planeRefusal_of_setupRefusal (setupRefusal_of_strict h hv hstrict)
  | waitPulsePoll | waitPulseIrq =>
    have hinst : isInstance s.cfg .std .joystickClient = true := (Bool.and_eq_true_iff.mp h).1
    exact waiterRefusal_of_setupRefusal (setupRefusal_of_strict hinst hv hstrict)
  | _ => cases hi

/-! ## HOST's calls -/

theorem call_of_undecodable {c : Code} {e : DecodeError} (h : decode c = .error e) (s : State) :
    call c s = .next (turnAway (.undecodable e) s) := by
  simp only [call, h]

theorem call_of_callback {c : Code} (h : decode c = .ok .edgeCb) (s : State) :
    call c s = .next (turnAway .callbackOnly s) := by
  simp only [call, h]

/-- While an operation runs, every call is turned away; what the code selects decides only the reason (rule R265). -/
theorem call_while_running (c : Code) {s : State} (hcur : s.cur ≠ none) :
    ∃ why, call c s = .next (turnAway why s) := by
  obtain ⟨j, hj⟩ := Option.ne_none_iff_exists'.mp hcur
  unfold call
  split
  · exact ⟨_, rfl⟩
  · exact ⟨_, rfl⟩
  · simp only [hj]
    exact ⟨_, rfl⟩

/-- Settles O43: each operation's reason follows from the clause's premises, and to be turned away is to have only the
answer changed. -/
theorem callsAreTurnedAway : Obligations.CallsAreTurnedAway := by
  refine ⟨?other, ?beforeSetup, ?strict, ?busy, ?running, ?undecodable, ?callback⟩
  case other => exact fun i s hcur hacc hpulse => exec_of_refusalOf hcur (refusalOf_not_accepted hacc hpulse)
  case beforeSetup =>
    exact fun i s hcur hacc hi hstrict hd => exec_of_refusalOf hcur (refusalOf_before_setup hacc hi hstrict hd)
  case strict =>
    exact fun i s hcur hacc hi hv hstrict => exec_of_refusalOf hcur (refusalOf_strict hacc hi hv hstrict)
  case busy => exact fun i j s hcur hne hi => exec_while_other_runs hcur hne hi
  case running => exact fun c s hcur => call_while_running c hcur
  case undecodable => exact fun c e s he => call_of_undecodable he s
  case callback => exact fun a s => call_of_callback (decode_of_decodeOp rfl rfl) s

end Sys2Proof.Machine
end

section
/-! The BitBuffer operations (O1 to O8): each one answers what its access answers, or the RangeFault. What an access
reads after another has written follows bit by bit from the laws of the unchecked accesses. -/

namespace Sys2Proof.Machine

/-! ## Accesses that are checked -/

section
variable {buf : BitBuffer} {i s w k : Int}

theorem bitInRange_eq_false (h : i < 0 ∨ buf.N ≤ i) : bitInRange buf i = false := by
  rw [bitInRange, Bool.and_eq_false_iff, decide_eq_false_iff_not, decide_eq_false_iff_not]
  omega

theorem fieldInRange_iff : fieldInRange buf s w = true ↔ 0 ≤ s ∧ 1 ≤ w ∧ w ≤ 32 ∧ s + w ≤ buf.N := by
  simp [fieldInRange, and_assoc]

theorem fieldInRange_eq_false (h : s < 0 ∨ w < 1 ∨ 32 < w ∨ buf.N < s + w) : fieldInRange buf s w = false := by
  rw [← Bool.not_eq_true, fieldInRange_iff]
  omega

theorem byteInRange_eq_false (h : k < 0 ∨ byteCount buf.N ≤ k) : byteInRange buf k = false := by
  rw [byteInRange, Bool.and_eq_false_iff, decide_eq_false_iff_not, decide_eq_false_iff_not]
  omega

theorem getBit_outOfRange (h : i < 0 ∨ buf.N ≤ i) : getBit buf i = .error ⟨.getBit i, buf.N⟩ := by
  simp [getBit, bitInRange_eq_false h]

theorem setBit_outOfRange (v : Bool) (h : i < 0 ∨ buf.N ≤ i) : setBit buf i v = .error ⟨.setBit i, buf.N⟩ := by
  simp [setBit, bitInRange_eq_false h]

theorem getField_outOfRange (h : s < 0 ∨ w < 1 ∨ 32 < w ∨ buf.N < s + w) :
    getField buf s w = .error ⟨.getField s w, buf.N⟩ := by
  simp [getField, fieldInRange_eq_false h]

theorem setField_inRange (v : Nat) (h : 0 ≤ s ∧ 1 ≤ w ∧ w ≤ 32 ∧ s + w ≤ buf.N) :
    setField buf s w v = .ok (rawPutField buf s.toNat w.toNat v) := by
  simp [setField, fieldInRange_iff.mpr h]

theorem setField_outOfRange (v : Nat) (h : s < 0 ∨ w < 1 ∨ 32 < w ∨ buf.N < s + w) :
    setField buf s w v = .error ⟨.setField s w, buf.N⟩ := by
  simp [setField, fieldInRange_eq_false h]

theorem getByte_outOfRange (h : k < 0 ∨ byteCount buf.N ≤ k) : getByte buf k = .error ⟨.getByte k, buf.N⟩ := by
  simp [getByte, byteInRange_eq_false h]

theorem setByte_inRange (v : Byte) (h : 0 ≤ k ∧ k < byteCount buf.N) :
    setByte buf k v = .ok (rawPutByte buf k.toNat v) := by
  simp [setByte, byteInRange, h]

theorem setByte_outOfRange (v : Byte) (h : k < 0 ∨ byteCount buf.N ≤ k) :
    setByte buf k v = .error ⟨.setByte k, buf.N⟩ := by
  simp [setByte, byteInRange_eq_false h]

end

/-- The backing bytes hold every bit of the buffer (rule R110). -/
theorem capacity_le_bits {buf : BitBuffer} (h : buf.wf = true) : buf.N ≤ 8 * buf.bytes.length := by
  obtain ⟨-, hlen⟩ := (BitBuffer.wf_iff buf).mp h
  rw [hlen, byteCount]
  omega

/-! ## Fields and bytes, bit by bit -/

theorem getLsbD_rawByte (buf : BitBuffer) (k : Nat) {j : Nat} (hj : j < 8) :
    (rawByte buf k).getLsbD j = rawBit buf (8 * k + j) := by
  have hdiv : (8 * k + j) / 8 = k := by omega
  have hmod : (8 * k + j) % 8 = j := by omega
  rw [rawBit, hdiv, hmod]

theorem rawField_rawPutField {buf : BitBuffer} {s w : Nat} (v : Nat) (h : s + w ≤ 8 * buf.bytes.length) :
    rawField (rawPutField buf s w v) s w = v % 2 ^ w := by
  refine Nat.eq_of_testBit_eq fun j => ?_
  rw [testBit_rawField, Nat.testBit_mod_two_pow, rawBit_rawPutField _ _ _ _ _ h]
  by_cases hj : j < w <;> simp [hj]

theorem rawField_zeros (n s w : Nat) : rawField (zeros n) s w = 0 :=
  Nat.eq_of_testBit_eq fun j => by simp [testBit_rawField, rawBit_zeros]

/-- A whole byte is the 8-bit field at its place (rule R118 (d)). -/
theorem rawField_eight (buf : BitBuffer) (k : Nat) : rawField buf (8 * k) 8 = (rawByte buf k).toNat := by
  refine Nat.eq_of_testBit_eq fun j => ?_
  rw [testBit_rawField, BitVec.testBit_toNat]
  by_cases hj : j < 8
  · rw [getLsbD_rawByte buf k hj, decide_eq_true hj, Bool.true_and]
  · simp [hj, BitVec.getLsbD_of_ge _ j (Nat.not_lt.mp hj)]

/-- A field is its low part and, above it, its high part (rule R118 (f)). -/
theorem rawField_split (buf : BitBuffer) (s : Nat) {w w1 : Nat} (h : w1 ≤ w) :
    rawField buf s w = rawField buf s w1 ||| rawField buf (s + w1) (w - w1) <<< w1 := by
  refine Nat.eq_of_testBit_eq fun j => ?_
  rw [Nat.testBit_or, Nat.testBit_shiftLeft, testBit_rawField, testBit_rawField, testBit_rawField]
  by_cases hlow : j < w1
  · have hw : j < w := by omega
    simp [hlow, hw]
  · have hplace : s + w1 + (j - w1) = s + j := by omega
    have hhigh : j - w1 < w - w1 ↔ j < w := by omega
    simp [hlow, hplace, hhigh, Nat.not_lt.mp hlow]

/-! ## What each operation answers -/

/-- An operation that is one access answers what the access reads, or its RangeFault, and changes nothing else. -/
theorem oneStep_access {α : Type} {i : Instr} {s : State} (h : s.cur = none) (access : Except RangeInfo α)
    (answer : α → Result) :
    oneStep none i s (fun s => orRangeFault access fun v => .next (finish (answer v) s)) =
      orRangeFault access fun v => .next (s.returned (answer v) []) := by
  rw [oneStep_rest h]
  rfl

section
variable {s : State} (h : s.cur = none) (buf : BitBuffer)
include h

theorem exec_bbGetBit (i : Int) :
    exec (.bbGetBit buf i) s = orRangeFault (getBit buf i) fun v => .next (s.returned (.bit v) []) :=
  oneStep_access h _ _

theorem exec_bbSetBit (i : Int) (v : Nat) : exec (.bbSetBit buf i v) s =
    orRangeFault (setBit buf i (v.testBit 0)) fun b => .next (s.returned (.buffer b) []) :=
  oneStep_access h _ _

theorem exec_bbGetField (start width : Int) : exec (.bbGetField buf start width) s =
    orRangeFault (getField buf start width) fun v => .next (s.returned (.value (BitVec.ofNat 32 v)) []) :=
  oneStep_access h _ fun v => .value (BitVec.ofNat 32 v)

theorem exec_bbSetField (start width : Int) (v : Nat) : exec (.bbSetField buf start width v) s =
    orRangeFault (setField buf start width v) fun b => .next (s.returned (.buffer b) []) :=
  oneStep_access h _ _

theorem exec_bbGetByte (k : Int) :
    exec (.bbGetByte buf k) s = orRangeFault (getByte buf k) fun v => .next (s.returned (.byte v) []) :=
  oneStep_access h _ _

theorem exec_bbSetByte (k : Int) (v : Nat) : exec (.bbSetByte buf k v) s =
    orRangeFault (setByte buf k (BitVec.ofNat 8 v)) fun b => .next (s.returned (.buffer b) []) :=
  oneStep_access h _ _

end

/-! ## The operations -/

/-- Settles O3: in range the buffer is the one with bit `i` put, which leaves every other bit. -/
theorem bbSetBitWritesOneBit : Obligations.BbSetBitWritesOneBit := by
  refine ⟨fun buf i v s hwf hcur => ⟨fun hin => ?inRange, fun hout => ?outside⟩, ?code⟩
  case inRange =>
    have hbits := capacity_le_bits hwf
    refine ⟨rawPutBit buf i.toNat (v.testBit 0), ?_, rawPutBit_N _ _ _, rawPutBit_length _ _ _, fun j => ?_⟩
    · rw [exec_bbSetBit hcur, setBit_inRange _ hin, orRangeFault_ok]
    · exact rawBit_rawPutBit _ _ _ _ (by omega)
  case outside => rw [exec_bbSetBit hcur, setBit_outOfRange _ hout, orRangeFault_error]
  case code => exact fun buf i v a hwf => decode_of_decodeOp rfl hwf

/-- Settles O4: a field of at most 32 bits fits the answered word. -/
theorem bbGetFieldReadsUnsigned : Obligations.BbGetFieldReadsUnsigned := by
  refine fun buf start width s hcur => ⟨fun hin => ?inRange, fun hout => ?outside⟩
  case inRange =>
    refine ⟨BitVec.ofNat 32 (rawField buf start.toNat width.toNat), ?_, fun j => ?_⟩
    · rw [exec_bbGetField hcur, getField_inRange hin, orRangeFault_ok]
    · rw [BitVec.getLsbD_ofNat, testBit_rawField]
      by_cases hj : j < width.toNat
      · have hword : j < 32 := by omega
        simp [hj, hword]
      · simp [hj]
  case outside => rw [exec_bbGetField hcur, getField_outOfRange hout, orRangeFault_error]

/-- Settles O5: in range the buffer is the one with the field put, which leaves every bit outside. -/
theorem bbSetFieldWritesUnsigned : Obligations.BbSetFieldWritesUnsigned := by
  refine fun buf start width v s hwf hcur => ⟨fun hin => ?inRange, fun hout => ?outside⟩
  case inRange =>
    have hbits := capacity_le_bits hwf
    refine ⟨rawPutField buf start.toNat width.toNat v, ?_, rawPutField_N _ _ _ _, rawPutField_length _ _ _ _,
      fun j => ?_⟩
    · rw [exec_bbSetField hcur, setField_inRange _ hin, orRangeFault_ok]
    · exact rawBit_rawPutField _ _ _ _ _ (by omega)
  case outside => rw [exec_bbSetField hcur, setField_outOfRange _ hout, orRangeFault_error]

/-- Settles O8: each law is one of the unchecked accesses, which the checked ones are in range. -/
theorem bitBufferAccessLaws : Obligations.BitBufferAccessLaws := by
  refine ⟨?bit, ?field, ?byte, ?zero, ?split⟩
  case bit =>
    intro buf i j v hwf hi hiN hj hjN
    have hbits := capacity_le_bits hwf
    refine ⟨_, setBit_inRange v ⟨hi, hiN⟩, ?same, fun hne => ?other⟩
    case same => rw [getBit_inRange (by simpa using ⟨hi, hiN⟩), rawBit_rawPutBit _ _ _ _ (by omega), if_pos rfl]
    case other =>
      rw [getBit_inRange (by simpa using ⟨hj, hjN⟩), getBit_inRange ⟨hj, hjN⟩, rawBit_rawPutBit _ _ _ _ (by omega),
        if_neg (by omega)]
  case field =>
    intro buf s w v hwf hin
    rw [fieldInRange_iff] at hin
    have hbits := capacity_le_bits hwf
    have hfits : s.toNat + w.toNat ≤ 8 * buf.bytes.length := by omega
    refine ⟨_, setField_inRange v hin, ?same, fun j hj hjN hout => ?other⟩
    case same => rw [getField_inRange (by simpa using hin), rawField_rawPutField v hfits]
    case other =>
      rw [getBit_inRange (by simpa using ⟨hj, hjN⟩), getBit_inRange ⟨hj, hjN⟩, rawBit_rawPutField _ _ _ _ _ hfits,
        if_neg (by omega)]
  case byte =>
    intro buf k hwf hk hN
    have hcount : k < byteCount buf.N := by rw [byteCount]; omega
    have hplace : (8 * k).toNat = 8 * k.toNat := by omega
    refine ⟨_, getByte_inRange ⟨hk, hcount⟩, ?_⟩
    rw [getField_inRange (by omega), hplace]
    exact congrArg Except.ok (rawField_eight buf k.toNat)
  case zero =>
    intro n s w hin
    rw [getField_inRange (fieldInRange_iff.mp hin), rawField_zeros]
  case split =>
    intro buf s w w1 hwf hin hpos hlt
    rw [fieldInRange_iff] at hin
    refine ⟨_, _, _, getField_inRange hin, getField_inRange (by omega), getField_inRange (by omega), ?_⟩
    have hplace : (s + w1).toNat = s.toNat + w1.toNat := by omega
    have hwidth : (w - w1).toNat = w.toNat - w1.toNat := by omega
    rw [hplace, hwidth]
    exact rawField_split buf s.toNat (by omega)

/-- Settles O1: the operation has no access that could fault, so it answers the zeroed buffer at once. -/
theorem bbZeroMakesZeroBuffer : Obligations.BbZeroMakesZeroBuffer := by
  refine ⟨fun n s hcur => ?run, fun n a hpos hle => ?code⟩
  case run =>
    rw [exec, execBbZero, oneStep_rest hcur]
    rfl
  case code => exact decode_of_decodeOp rfl (by simp [Instr.wellFormed, hpos, hle])

/-- Settles O2: the operation answers what `getBit` does. -/
theorem bbGetBitReadsOneBit : Obligations.BbGetBitReadsOneBit := by
  refine ⟨fun buf i s hcur => ⟨fun hin => ?inRange, fun hout => ?outside⟩, ?code⟩
  case inRange =>
    rw [exec_bbGetBit hcur, getBit_inRange hin]
    rfl
  case outside => rw [exec_bbGetBit hcur, getBit_outOfRange hout, orRangeFault_error]
  case code => exact fun buf i a hwf => decode_of_decodeOp rfl hwf

/-- Settles O6: the byte is read whole, and buffer bits are bits of bytes (rule R59). -/
theorem bbGetByteReadsBackingByte : Obligations.BbGetByteReadsBackingByte := by
  refine ⟨fun buf k s hcur => ⟨fun hin => ⟨?inRange, fun j hj => ?bits⟩, fun hout => ?outside⟩, ?code⟩
  case inRange =>
    rw [exec_bbGetByte hcur, getByte_inRange hin]
    rfl
  case bits => exact getLsbD_rawByte buf k.toNat hj
  case outside => rw [exec_bbGetByte hcur, getByte_outOfRange hout, orRangeFault_error]
  case code => exact fun buf k a hwf => decode_of_decodeOp rfl hwf

/-- Settles O7: a byte holds `v` modulo 256. -/
theorem bbSetByteWritesBackingByte : Obligations.BbSetByteWritesBackingByte := by
  refine ⟨fun buf k v s hcur => ⟨fun hin => ?inRange, fun hout => ?outside⟩, ?code⟩
  case inRange =>
    have hbyte : BitVec.ofNat 8 (v % 256) = BitVec.ofNat 8 v := BitVec.eq_of_toNat_eq (by simp)
    rw [exec_bbSetByte hcur, setByte_inRange _ hin, hbyte]
    rfl
  case outside => rw [exec_bbSetByte hcur, setByte_outOfRange _ hout, orRangeFault_error]
  case code => exact fun buf k v a hwf => decode_of_decodeOp rfl hwf

end Sys2Proof.Machine
end

section
/-! What the codec operations answer while nothing runs, and the RangeFault of a buffer that is too short (O10, O12,
O17). -/

namespace Sys2Proof.Machine
open Sys2Proof.Claims

/-! ## What each operation answers -/

section
variable {s : State} (h : s.cur = none)
include h

theorem exec_encProState (r : JoystickState) :
    exec (.encProState r) s = .next (s.returned (.buffer (encProState r)) []) := by
  rw [exec, execEncProState, oneStep_rest h]
  rfl

theorem exec_encProCfg (r : ProConfig) :
    exec (.encProCfg r) s = .next (s.returned (.buffer (encProCfg s.cfg.ledCode r)) []) := by
  rw [exec, execEncProCfg, oneStep_rest h]
  rfl

variable (buf : BitBuffer)

theorem exec_decProState : exec (.decProState buf) s =
    orRangeFault (decProState s.cfg buf) fun r => .next { s.returned (.state r true) [] with ok := true } := by
  rw [exec, execDecProState, oneStep_rest h]
  rfl

theorem exec_decProCfg : exec (.decProCfg buf) s =
    orRangeFault (decProCfg s.cfg.ledCode buf) fun r =>
      .next { s.returned (.proConfig r true) [] with ok := true } := by
  rw [exec, execDecProCfg, oneStep_rest h]
  rfl

theorem exec_decStdCfg : exec (.decStdCfg buf) s =
    orRangeFault (decStdCfg buf) fun r => .next { s.returned (.stdConfig r true) [] with ok := true } := by
  rw [exec, execDecStdCfg, oneStep_rest h]
  rfl

theorem exec_decStdState : exec (.decStdState buf) s =
    orRangeFault (decStdState s.cfg buf) fun r => .next (finishStdDecode r (launch (.decStdState buf) s)) := by
  rw [exec, execDecStdState, oneStep_rest h]
  rfl

theorem exec_checksum : exec (.checksum buf) s =
    orRangeFault (checksumOf buf) fun c => .next (s.returned (.byte c) []) :=
  oneStep_access h _ _

end

/-- Settles O10: of a long enough buffer the decode answers the record it stands for. -/
theorem decProStateReadsFields : Obligations.DecProStateReadsFields := by
  intro buf s hN hcur
  rw [exec_decProState hcur, decProState_eq hN, orRangeFault_ok]

/-- Settles O12: of a long enough buffer the decode answers the record it stands for. -/
theorem decProCfgReadsFields : Obligations.DecProCfgReadsFields := by
  intro buf s hN hcur
  rw [exec_decProCfg hcur, decProCfg_eq hN, orRangeFault_ok]

/-! ## Reads that a short buffer stops -/

/-- The reads stop with a RangeFault, which names the capacity of the buffer (rules R105, R226). -/
def StopsShort {α : Type} (buf : BitBuffer) (reads : Except RangeInfo α) : Prop := ∃ x, reads = .error ⟨x, buf.N⟩

section
variable {α : Type} {buf : BitBuffer} {i s w : Int}

theorem StopsShort.orRangeFault {r : Except RangeInfo α} (h : StopsShort buf r) (k : α → Out) :
    ∃ x, orRangeFault r k = .fault (.rangeFault ⟨x, buf.N⟩) := by
  obtain ⟨x, rfl⟩ := h
  exact ⟨x, rfl⟩

/-- A bit is out of range, or the reads after it are stopped. -/
theorem stopsShort_getBit {k : Bool → Except RangeInfo α} (h : i < buf.N → ∀ v, StopsShort buf (k v)) :
    StopsShort buf (getBit buf i >>= k) := by
  by_cases hin : 0 ≤ i ∧ i < buf.N
  · rw [getBit_inRange hin]
    exact h hin.2 _
  · rw [getBit_outOfRange (by omega)]
    exact ⟨_, rfl⟩

/-- A field is out of range, or the reads after it are stopped. -/
theorem stopsShort_getField {k : Nat → Except RangeInfo α} (h : s + w ≤ buf.N → ∀ v, StopsShort buf (k v)) :
    StopsShort buf (getField buf s w >>= k) := by
  by_cases hin : 0 ≤ s ∧ 1 ≤ w ∧ w ≤ 32 ∧ s + w ≤ buf.N
  · rw [getField_inRange hin]
    obtain ⟨-, -, -, hend⟩ := hin
    exact h hend _
  · rw [getField_outOfRange (by omega)]
    exact ⟨_, rfl⟩

end

section
variable {buf : BitBuffer}

/-- Bit 55 is read last, so its read or an earlier one is out of range. -/
theorem decProState_stopsShort (cfg : Config) (h : buf.N < 56) : StopsShort buf (decProState cfg buf) := by
  unfold decProState
  iterate 7 refine stopsShort_getField fun _ _ => ?_
  iterate 19 refine stopsShort_getBit fun _ _ => ?_
  exact stopsShort_getBit fun hlast => absurd hlast (by omega)

/-- The field of bits 17 and 18 is read last. -/
theorem decProCfg_stopsShort (l : LedCode) (h : buf.N < 19) : StopsShort buf (decProCfg l buf) :=
  stopsShort_getField fun _ _ => stopsShort_getBit fun _ _ => stopsShort_getField fun _ _ =>
    stopsShort_getField fun _ _ => stopsShort_getBit fun _ _ => stopsShort_getField fun _ _ =>
      stopsShort_getField fun _ _ => stopsShort_getField fun _ _ =>
        stopsShort_getField fun hlast => absurd hlast (by omega)

theorem decStdCfg_stopsShort (h : buf.N < 8) : StopsShort buf (decStdCfg buf) :=
  stopsShort_getField fun _ _ => stopsShort_getBit fun hlast => absurd hlast (by omega)

/-- Byte 7 is read first (rule R141). -/
theorem decStdState_of_short (cfg : Config) (h : buf.N ≤ 56) :
    decStdState cfg buf = .error ⟨.getByte 7, buf.N⟩ := by
  have hcount : byteCount buf.N ≤ 7 := by unfold byteCount; omega
  unfold decStdState
  rw [getByte_outOfRange (by omega)]
  rfl

/-- The byte is missing and the one before it is not, or the bytes after it are read (rule R115). -/
theorem getByte_or_firstMissing {α : Type} {k : Int} {f : Byte → Except RangeInfo α} (h0 : 0 ≤ k)
    (hk : k ≤ byteCount buf.N)
    (h : k < byteCount buf.N → ∀ v, f v = .error ⟨.getByte (byteCount buf.N), buf.N⟩) :
    (getByte buf k >>= f) = .error ⟨.getByte (byteCount buf.N), buf.N⟩ := by
  rcases hk.lt_or_eq with hlt | rfl
  · rw [getByte_inRange ⟨h0, hlt⟩]
    exact h hlt _
  · rw [getByte_outOfRange (.inr le_rfl)]
    rfl

/-- The bytes are read in order from byte 0, so the first missing one is byte `ceil(N/8)` (rule R145). -/
theorem checksumOf_of_short (h : buf.N ≤ 48) :
    checksumOf buf = .error ⟨.getByte (byteCount buf.N), buf.N⟩ := by
  have hcount : byteCount buf.N ≤ 6 := by unfold byteCount; omega
  unfold checksumOf
  iterate 7 refine getByte_or_firstMissing (by decide) (by omega) fun _ _ => ?_
  omega

end

/-- Settles O17: each decode reads the bits it needs up to the last one, or stops before it. -/
theorem shortBufferRaisesRangeFault : Obligations.ShortBufferRaisesRangeFault := by
  intro buf s hcur
  rw [exec_decProState hcur, exec_decProCfg hcur, exec_decStdCfg hcur, exec_decStdState hcur, exec_checksum hcur]
  refine ⟨fun h => ?proState, fun h => ?proCfg, fun h => ?stdCfg, fun h => ?stdState, fun h => ?checksum⟩
  case proState => exact (decProState_stopsShort _ h).orRangeFault _
  case proCfg => exact (decProCfg_stopsShort _ h).orRangeFault _
  case stdCfg => exact (decStdCfg_stopsShort h).orRangeFault _
  case stdState => rw [decStdState_of_short _ h, orRangeFault_error]
  case checksum =>
    rw [checksumOf_of_short h, orRangeFault_error]
    rfl

end Sys2Proof.Machine
end

section
/-! Buffers built from field writes: what a list of writes at places of their own leaves at each place. The encodes of
both variants are such lists (rules R120, R125, R140, R148). -/

namespace Sys2Proof.Machine

/-- Where a field stands: the `width` bits from bit `start` on (rule R113). -/
structure Place where
  start : Nat
  width : Nat

/-- Bit `i` belongs to the field at `p`. -/
abbrev Place.covers (p : Place) (i : Nat) : Prop := p.start ≤ i ∧ i < p.start + p.width

/-- No bit belongs to both fields. -/
abbrev Place.apart (p q : Place) : Prop := p.start + p.width ≤ q.start ∨ q.start + q.width ≤ p.start

/-- Each place is within the first `n` bits, and apart from the others. -/
abbrev Placed (n : Nat) (ps : List Place) : Prop := (∀ p ∈ ps, p.start + p.width ≤ n) ∧ ps.Pairwise Place.apart

/-- One write of an encode: the bits at the place become those of `value` (rule R114). -/
structure FieldWrite extends Place where
  value : Nat

/-- The buffer after these writes, the first of the list first. -/
def putFields (buf : BitBuffer) (ws : List FieldWrite) : BitBuffer :=
  ws.foldl (fun b f => rawPutField b f.start f.width f.value) buf

theorem putFields_cons (buf : BitBuffer) (f : FieldWrite) (ws : List FieldWrite) :
    putFields buf (f :: ws) = putFields (rawPutField buf f.start f.width f.value) ws := rfl

section
variable {n : Nat} {i : Nat}

/-- A bit that no write covers is as before. -/
theorem rawBit_putFields_of_not_covers {ws : List FieldWrite} :
    ∀ {buf : BitBuffer}, n ≤ 8 * buf.bytes.length → (∀ f ∈ ws, f.start + f.width ≤ n) →
      (∀ f ∈ ws, ¬f.covers i) → rawBit (putFields buf ws) i = rawBit buf i := by
  induction ws with
  | nil => exact fun _ _ _ => rfl
  | cons g ws ih =>
    intro buf hn hfits hfree
    obtain ⟨hgfits, hfits⟩ := List.forall_mem_cons.mp hfits
    obtain ⟨hgfree, hfree⟩ := List.forall_mem_cons.mp hfree
    rw [putFields_cons, ih (by simpa using hn) hfits hfree, rawBit_rawPutField _ _ _ _ _ (by omega), if_neg hgfree]

/-- A bit of a write at a place of its own is the bit written. -/
theorem rawBit_putFields {ws : List FieldWrite} {f : FieldWrite} (hi : f.covers i) :
    ∀ {buf : BitBuffer}, n ≤ 8 * buf.bytes.length → Placed n (ws.map (·.toPlace)) → f ∈ ws →
      rawBit (putFields buf ws) i = f.value.testBit (i - f.start) := by
  induction ws with
  | nil => exact fun _ _ hf => absurd hf List.not_mem_nil
  | cons g ws ih =>
    intro buf hn ⟨hfits, hapart⟩ hf
    simp only [List.map_cons, List.forall_mem_cons, List.pairwise_cons, List.forall_mem_map] at hfits hapart
    obtain ⟨hgfits, hfits⟩ := hfits
    obtain ⟨hgapart, hapart⟩ := hapart
    have hn' : n ≤ 8 * (rawPutField buf g.start g.width g.value).bytes.length := by simpa using hn
    rcases List.mem_cons.mp hf with rfl | hf
    · have hfree : ∀ q ∈ ws, ¬q.covers i := fun q hq => by have := hgapart q hq; omega
      rw [putFields_cons, rawBit_putFields_of_not_covers hn' hfits hfree, rawBit_rawPutField _ _ _ _ _ (by omega),
        if_pos hi]
    · exact ih hn' ⟨by simpa using hfits, hapart⟩ hf

/-- Each write can be read back. -/
theorem rawField_putFields {buf : BitBuffer} {ws : List FieldWrite} {f : FieldWrite} (hn : n ≤ 8 * buf.bytes.length)
    (hws : Placed n (ws.map (·.toPlace))) (hf : f ∈ ws) :
    rawField (putFields buf ws) f.start f.width = f.value % 2 ^ f.width := by
  refine Nat.eq_of_testBit_eq fun j => ?_
  rw [testBit_rawField, Nat.testBit_mod_two_pow]
  by_cases hj : j < f.width
  · rw [rawBit_putFields (by constructor <;> omega) hn hws hf, Nat.add_sub_cancel_left]
  · simp [hj]

/-- What is apart from every write still reads 0 in a buffer that was zeroed. -/
theorem rawField_putFields_zeros {m s w : Nat} {ws : List FieldWrite} (hn : n ≤ 8 * byteCount m)
    (hws : Placed n (ws.map (·.toPlace))) (hfree : ∀ p ∈ ws.map (·.toPlace), p.apart ⟨s, w⟩) :
    rawField (putFields (zeros m) ws) s w = 0 := by
  obtain ⟨hfits, -⟩ := hws
  rw [List.forall_mem_map] at hfits hfree
  refine Nat.eq_of_testBit_eq fun j => ?_
  rw [testBit_rawField, Nat.zero_testBit]
  by_cases hj : j < w
  · have hfree : ∀ f ∈ ws, ¬f.covers (s + j) := fun f hf => by
      have hapart : f.start + f.width ≤ s ∨ s + w ≤ f.start := hfree f hf
      omega
    rw [rawBit_putFields_of_not_covers (by simpa using hn) hfits hfree, rawBit_zeros, Bool.and_false]
  · simp [hj]

end

/-! ## Single bits -/

theorem testBit_zero_bitOf (v : Bool) : (bitOf v).testBit 0 = v := by cases v <;> rfl

/-- A bit is a field of width 1 (rules R112, R114). -/
theorem rawPutBit_eq_rawPutField (buf : BitBuffer) (i : Nat) (v : Bool) :
    rawPutBit buf i v = rawPutField buf i 1 (bitOf v) := by
  simp only [rawPutField, testBit_zero_bitOf, Nat.add_zero]

theorem rawField_one (buf : BitBuffer) (i : Nat) : rawField buf i 1 = bitOf (rawBit buf i) := by
  simp [rawField, bitOf]

theorem bitOf_inj {v v' : Bool} : bitOf v = bitOf v' ↔ v = v' := by cases v <;> cases v' <;> decide

theorem bitOf_mod_two (v : Bool) : bitOf v % 2 = bitOf v := by cases v <;> rfl

/-! ## Buffers with the same fields -/

theorem rawBit_eq_of_rawField_eq {A B : BitBuffer} {p : Place} {i : Nat}
    (h : rawField A p.start p.width = rawField B p.start p.width) (hi : p.covers i) : rawBit A i = rawBit B i := by
  obtain ⟨j, rfl⟩ := Nat.exists_eq_add_of_le hi.1
  have hj : j < p.width := by omega
  have hbit := congrArg (·.testBit j) h
  simpa [testBit_rawField, hj] using hbit

/-- Buffers agree on the bits that fields they agree on cover. -/
theorem rawBit_eq_of_fields_eq {A B : BitBuffer} {ps : List Place} {n : Nat}
    (hcover : ∀ i < n, ∃ p ∈ ps, p.covers i)
    (h : ∀ p ∈ ps, rawField A p.start p.width = rawField B p.start p.width) : ∀ i < n, rawBit A i = rawBit B i := by
  intro i hi
  obtain ⟨p, hp, hpi⟩ := hcover i hi
  exact rawBit_eq_of_rawField_eq (h p hp) hpi

/-- Without pad bits, a buffer is its capacity and its bits (rule R110). -/
theorem eq_of_rawBit_eq {A B : BitBuffer} (hA : A.wf = true) (hB : B.wf = true) (hN : A.N = B.N)
    (hfull : A.N = 8 * byteCount A.N) (h : ∀ i < A.N, rawBit A i = rawBit B i) : A = B := by
  obtain ⟨-, hAlen⟩ := (BitBuffer.wf_iff A).mp hA
  obtain ⟨-, hBlen⟩ := (BitBuffer.wf_iff B).mp hB
  have hbyte : ∀ k < byteCount A.N, rawByte A k = rawByte B k := fun k hk => by
    refine BitVec.eq_of_getLsbD_eq fun j hj => ?_
    rw [getLsbD_rawByte A k hj, getLsbD_rawByte B k hj, h _ (by omega)]
  have hbytes : A.bytes = B.bytes := by
    refine List.ext_getElem (by rw [hAlen, hBlen, hN]) fun k hkA hkB => ?_
    simpa [rawByte, List.getD_eq_getElem?_getD, hkA, hkB] using hbyte k (hAlen ▸ hkA)
  cases A
  cases B
  cases hN
  cases hbytes
  rfl

end Sys2Proof.Machine
end

section
/-! The Pro codec (O9, O11, O19, O20): an encode is a list of writes at places of their own, so each field of the record
is read back at its place; with the tables inverted this gives both round trips. -/

namespace Sys2Proof.Machine
open Sys2Proof.Claims

/-! ## The writes of ENC.PRO.STATE -/

/-- The writes of `encProState` (rule R120). -/
def proStateWrites (r : JoystickState) : List FieldWrite :=
  [⟨⟨0, 8⟩, r.x.toNat &&& 0xFF⟩, ⟨⟨16, 2⟩, (r.x.toNat >>> 8) &&& 3⟩, ⟨⟨8, 8⟩, r.y.toNat &&& 0xFF⟩,
    ⟨⟨18, 2⟩, (r.y.toNat >>> 8) &&& 3⟩, ⟨⟨24, 8⟩, r.z.toNat &&& 0xFF⟩, ⟨⟨22, 2⟩, (r.z.toNat >>> 8) &&& 3⟩,
    ⟨⟨32, 4⟩, proHat1Code r.hat1⟩, ⟨⟨36, 1⟩, bitOf (r.hat2.getLsbD 3)⟩, ⟨⟨37, 1⟩, bitOf (r.hat2.getLsbD 0)⟩,
    ⟨⟨38, 1⟩, bitOf (r.hat2.getLsbD 1)⟩, ⟨⟨39, 1⟩, bitOf (r.hat2.getLsbD 2)⟩, ⟨⟨40, 1⟩, bitOf r.trigger1⟩,
    ⟨⟨41, 1⟩, bitOf r.fire⟩, ⟨⟨42, 1⟩, bitOf r.a⟩, ⟨⟨43, 1⟩, bitOf r.c⟩, ⟨⟨44, 1⟩, bitOf r.trigger2⟩,
    ⟨⟨45, 1⟩, bitOf (decide (r.mode = .mode1))⟩, ⟨⟨46, 1⟩, bitOf (decide (r.mode = .mode2))⟩,
    ⟨⟨47, 1⟩, bitOf (decide (r.mode = .mode3))⟩, ⟨⟨48, 1⟩, bitOf r.b⟩, ⟨⟨49, 1⟩, bitOf r.pinkie⟩,
    ⟨⟨50, 1⟩, bitOf r.t1⟩, ⟨⟨51, 1⟩, bitOf r.t2⟩, ⟨⟨52, 1⟩, bitOf r.t3⟩, ⟨⟨53, 1⟩, bitOf r.t4⟩,
    ⟨⟨54, 1⟩, bitOf r.t5⟩, ⟨⟨55, 1⟩, bitOf r.t6⟩]

/-- The places of the fields of rule R81, the same for every record. -/
def proStatePlaces : List Place := (proStateWrites .defaults).map (·.toPlace)

/-- The place of the reserved bits, which no write covers (rule R82). -/
def proStateReserved : Place := ⟨20, 2⟩

theorem encProState_eq_putFields (r : JoystickState) : encProState r = putFields (zeros 56) (proStateWrites r) := by
  simp only [encProState, rawPutBit_eq_rawPutField]
  rfl

theorem encProState_length (r : JoystickState) : (encProState r).bytes.length = 7 := by
  simp [encProState, byteCount]

theorem proStateWrites_places (r : JoystickState) : (proStateWrites r).map (·.toPlace) = proStatePlaces := rfl

theorem proStatePlaces_placed : Placed 56 proStatePlaces := by decide

theorem proStatePlaces_cover : ∀ i < 56, ∃ p ∈ proStateReserved :: proStatePlaces, p.covers i := by decide

theorem encProState_field {r : JoystickState} {f : FieldWrite} (hf : f ∈ proStateWrites r) :
    rawField (encProState r) f.start f.width = f.value % 2 ^ f.width := by
  rw [encProState_eq_putFields]
  exact rawField_putFields (n := 56) (by decide) (proStateWrites_places r ▸ proStatePlaces_placed) hf

theorem encProState_reserved (r : JoystickState) : rawField (encProState r) 20 2 = 0 := by
  rw [encProState_eq_putFields]
  refine rawField_putFields_zeros (n := 56) (by decide) (proStateWrites_places r ▸ proStatePlaces_placed) ?_
  rw [proStateWrites_places]
  decide

/-- A 56-bit buffer is the encoding of a record exactly when it holds each of its writes, and reserved bits 0. -/
theorem encProState_eq_iff {r : JoystickState} {B : BitBuffer} (hwf : B.wf = true) (hN : B.N = 56) :
    encProState r = B ↔
      rawField B 20 2 = 0 ∧ ∀ f ∈ proStateWrites r, rawField B f.start f.width = f.value % 2 ^ f.width := by
  constructor
  · rintro rfl
    exact ⟨encProState_reserved r, fun f => encProState_field⟩
  · rintro ⟨hreserved, hfields⟩
    refine eq_of_rawBit_eq (encProState_wf r) hwf ((encProState_N r).trans hN.symm) (by rw [encProState_N]; rfl)
      (rawBit_eq_of_fields_eq (encProState_N r ▸ proStatePlaces_cover) (List.forall_mem_cons.mpr ⟨?reserved, ?fields⟩))
    case reserved => exact (encProState_reserved r).trans hreserved.symm
    case fields =>
      rw [← proStateWrites_places r, List.forall_mem_map]
      exact fun f hf => (encProState_field hf).trans (hfields f hf).symm

/-! ## The writes of ENC.PRO.CFG -/

/-- The writes of `encProCfg` (rule R125). -/
def proCfgWrites (l : LedCode) (r : ProConfig) : List FieldWrite :=
  [⟨⟨0, 5⟩, r.brightness.toNat &&& 0x1F⟩, ⟨⟨5, 1⟩, bitOf r.pov1Blink⟩, ⟨⟨6, 2⟩, ledEncode l r.buttonALed⟩,
    ⟨⟨8, 2⟩, ledEncode l r.pov2Led⟩, ⟨⟨10, 1⟩, bitOf !r.fireLed⟩, ⟨⟨11, 2⟩, ledEncode l r.buttonBLed⟩,
    ⟨⟨13, 2⟩, ledEncode l r.t1t2Led⟩, ⟨⟨15, 2⟩, ledEncode l r.t3t4Led⟩, ⟨⟨17, 2⟩, ledEncode l r.t5t6Led⟩]

/-- The places of the fields of rule R86, the same for every record and LED code. -/
def proCfgPlaces : List Place := (proCfgWrites .listing .defaults).map (·.toPlace)

section
variable (l : LedCode) (r : ProConfig)

theorem encProCfg_eq_putFields : encProCfg l r = putFields (zeros 19) (proCfgWrites l r) := by
  simp only [encProCfg, rawPutBit_eq_rawPutField]
  rfl

theorem encProCfg_length : (encProCfg l r).bytes.length = 3 := by
  simp [encProCfg, byteCount]

theorem proCfgWrites_places : (proCfgWrites l r).map (·.toPlace) = proCfgPlaces := rfl

theorem proCfgPlaces_placed : Placed 19 proCfgPlaces := by decide

theorem proCfgPlaces_cover : ∀ i < 19, ∃ p ∈ proCfgPlaces, p.covers i := by decide

variable {l r}

theorem encProCfg_field {f : FieldWrite} (hf : f ∈ proCfgWrites l r) :
    rawField (encProCfg l r) f.start f.width = f.value % 2 ^ f.width := by
  rw [encProCfg_eq_putFields]
  exact rawField_putFields (n := 19) (by decide) (proCfgWrites_places l r ▸ proCfgPlaces_placed) hf

variable (l r)

theorem encProCfg_pad : rawField (encProCfg l r) 19 5 = 0 := by
  rw [encProCfg_eq_putFields]
  refine rawField_putFields_zeros (n := 19) (by decide) (proCfgWrites_places l r ▸ proCfgPlaces_placed) ?_
  rw [proCfgWrites_places]
  decide

end

/-! ## The values of the fields -/

/-- The mask of an encode keeps the bits that the field takes. -/
theorem and_ones_mod (x w : Nat) : (x &&& 2 ^ w - 1) % 2 ^ w = x % 2 ^ w := by
  rw [Nat.and_two_pow_sub_one_eq_mod, Nat.mod_mod]

theorem lowByte_value (x : Nat) : (x &&& 0xFF) % 2 ^ 8 = x % 256 := and_ones_mod x 8

theorem highBits_value (x : Nat) : ((x >>> 8) &&& 3) % 2 ^ 2 = x / 256 % 4 := by
  rw [← Nat.shiftRight_eq_div_pow x 8]
  exact and_ones_mod (x >>> 8) 2

theorem brightness_value (x : Nat) : (x &&& 0x1F) % 2 ^ 5 = x % 32 := and_ones_mod x 5

theorem proHat1Code_le : ∀ d : Direction, proHat1Code d ≤ 8 := by decide

theorem proHat1Code_value (d : Direction) : proHat1Code d % 2 ^ 4 = proHat1Code d :=
  Nat.mod_eq_of_lt (Nat.lt_of_le_of_lt (proHat1Code_le d) (by decide))

theorem ledEncode_value (l : LedCode) (c : LedColor) : ledEncode l c % 2 ^ 2 = ledEncode l c := by
  refine Nat.mod_eq_of_lt ?_
  cases c <;> exact BitVec.isLt _

/-- A bit is written as a field of width 1, and read back as a bit. -/
theorem rawField_one_eq_iff {buf : BitBuffer} {i : Nat} {v : Bool} :
    rawField buf i 1 = bitOf v % 2 ^ 1 ↔ rawBit buf i = v := by
  rw [rawField_one, Nat.pow_one, bitOf_mod_two, bitOf_inj]

/-! ## The encodes -/

/-- Settles O9: each field is one of the writes; nothing is written to the reserved bits. -/
theorem encProStateLaysOutRecord : Obligations.EncProStateLaysOutRecord := by
  intro r s hcur
  have hfields : ∀ f ∈ proStateWrites r, _ := fun f => encProState_field
  simp only [proStateWrites, List.forall_mem_cons, List.not_mem_nil, false_imp_iff, implies_true, and_true,
    lowByte_value, highBits_value, proHat1Code_value, rawField_one_eq_iff] at hfields
  obtain ⟨hx0, hx1, hy0, hy1, hz0, hz1, hhat1, hup, hright, hdown, hleft, hbuttons⟩ := hfields
  exact ⟨_, exec_encProState hcur r, encProState_N r, encProState_length r, hx0, hx1, hy0, hy1, hz0, hz1,
    encProState_reserved r, hhat1, hup, hright, hdown, hleft, hbuttons⟩

/-- Settles O11: each field is one of the writes; nothing is written to the pad bits. -/
theorem encProCfgLaysOutRecord : Obligations.EncProCfgLaysOutRecord := by
  intro r s hcur
  have hfields : ∀ f ∈ proCfgWrites s.cfg.ledCode r, _ := fun f => encProCfg_field
  simp only [proCfgWrites, List.forall_mem_cons, brightness_value, ledEncode_value,
    rawField_one_eq_iff] at hfields
  obtain ⟨hbright, hblink, hA, hpov2, hfire, hB, h12, h34, h56, -⟩ := hfields
  exact ⟨_, exec_encProCfg hcur r, encProCfg_N _ r, encProCfg_length _ r, hbright, hblink, hA, hpov2, hfire, hB, h12,
    h34, h56, encProCfg_pad _ r⟩

/-! ## The tables and the split axes, inverted -/

/-- An axis of 10 bits is its low byte and the two bits above it (rule R120). -/
theorem axis_of_bytes {x : Axis} (hx : x.toNat ≤ 1023) :
    BitVec.ofNat 16 (x.toNat % 256 + 256 * (x.toNat / 256 % 4)) = x := by
  refine BitVec.eq_of_toNat_eq ?_
  rw [BitVec.toNat_ofNat]
  omega

theorem axis_lowByte {lo : Nat} (hlo : lo < 2 ^ 8) (hi : Nat) :
    (BitVec.ofNat 16 (lo + 256 * hi)).toNat % 256 = lo := by
  rw [BitVec.toNat_ofNat]
  omega

theorem axis_highBits {lo hi : Nat} (hlo : lo < 2 ^ 8) (hhi : hi < 2 ^ 2) :
    (BitVec.ofNat 16 (lo + 256 * hi)).toNat / 256 % 4 = hi := by
  rw [BitVec.toNat_ofNat]
  omega

theorem directionOf_bits : ∀ d : Direction,
    directionOf (d.getLsbD 0) (d.getLsbD 1) (d.getLsbD 2) (d.getLsbD 3) = d := by decide

/-- A mode is read from its own bit, none of them being Undefined (rules R84, R124). -/
theorem proMode_oneHot (cfg : Config) (m : Mode) :
    proMode cfg (decide (m = .mode1)) (decide (m = .mode2)) (decide (m = .mode3)) = m := by
  cases m <;> rfl

/-- The codes that stand for a Direction are those of rule R83, whatever the reserved ones decode to. -/
theorem proHat1Code_proHat1Dir_iff (cfg : Config) (n : Nat) : n = proHat1Code (proHat1Dir cfg n) ↔ n ≤ 8 := by
  constructor
  · intro h
    rw [h]
    exact proHat1Code_le _
  · intro h
    interval_cases n <;> rfl

/-- The mode bits that an encode can write are those with at most one set, whatever the others decode to. -/
theorem modeBits_proMode_iff (cfg : Config) (m1 m2 m3 : Bool) :
    (m1 = decide (proMode cfg m1 m2 m3 = .mode1) ∧ m2 = decide (proMode cfg m1 m2 m3 = .mode2) ∧
        m3 = decide (proMode cfg m1 m2 m3 = .mode3)) ↔
      ¬(m1 = true ∧ m2 = true) ∧ ¬(m1 = true ∧ m3 = true) ∧ ¬(m2 = true ∧ m3 = true) := by
  constructor
  · generalize proMode cfg m1 m2 m3 = m
    rintro ⟨rfl, rfl, rfl⟩
    cases m <;> decide
  · rintro ⟨h12, h13, h23⟩
    match m1, m2, m3 with
    | false, false, false | true, false, false | false, true, false | false, false, true => exact ⟨rfl, rfl, rfl⟩
    | true, true, _ => exact absurd ⟨rfl, rfl⟩ h12
    | true, false, true => exact absurd ⟨rfl, rfl⟩ h13
    | false, true, true => exact absurd ⟨rfl, rfl⟩ h23

/-- Four different codes of 2 bits are all there are (rule R23). -/
theorem ledEncode_ledDecode {l : LedCode} (h : l.wf = true) {v : Nat} (hv : v < 2 ^ 2) :
    ledEncode l (ledDecode l v) = v := by
  obtain ⟨hag, har, hao, hgr, hgo, hro⟩ := (LedCode.wf_iff l).mp h
  unfold ledDecode
  split_ifs with ha hg hr
  · exact ha.symm
  · exact hg.symm
  · exact hr.symm
  · show l.off.toNat = v
    bv_omega

theorem brightness_roundTrip {n : Nat} (hn : n < 2 ^ 5) : (BitVec.ofNat 8 n).toNat % 32 = n := by
  rw [BitVec.toNat_ofNat]
  omega

/-! ## The round trips -/

theorem validProState_iff (r : JoystickState) : validProState r = true ↔
    r.x.toNat ≤ 1023 ∧ r.y.toNat ≤ 1023 ∧ r.z.toNat ≤ 1023 ∧ validDirection r.hat1 = true := by
  simp [validProState, and_assoc]

/-- Settles O19: each field is read where O9 and O11 say it is written, and its table inverts (O18). -/
theorem proRecordsRoundTrip : Obligations.ProRecordsRoundTrip := by
  refine ⟨fun r s u hvalid hs hu => ?state, fun r s u hvalid hled hcode hs hu => ?config⟩
  case state =>
    obtain ⟨hx, hy, hz, hhat⟩ := (validProState_iff r).mp hvalid
    obtain ⟨B, hexec, hN, -, hx0, hx1, hy0, hy1, hz0, hz1, -, hhat1, hup, hright, hdown, hleft, htrigger1, hfire, ha,
      hc, htrigger2, hm1, hm2, hm3, hb, hpinkie, ht1, ht2, ht3, ht4, ht5, ht6⟩ := encProStateLaysOutRecord r s hs
    refine ⟨B, hexec, ?_⟩
    have hrecord : proStateOf u.cfg B = r := by
      rw [proStateOf, hx0, hx1, hy0, hy1, hz0, hz1, hhat1, hup, hright, hdown, hleft, htrigger1, hfire, ha, hc,
        htrigger2, hm1, hm2, hm3, hb, hpinkie, ht1, ht2, ht3, ht4, ht5, ht6, axis_of_bytes hx, axis_of_bytes hy,
        axis_of_bytes hz, proHat1Dir_proHat1Code _ _ hhat, directionOf_bits, proMode_oneHot]
    rw [decProStateReadsFields B u hN.ge hu, hrecord]
  case config =>
    have hbright : r.brightness.toNat ≤ 31 := by simpa [validProConfig] using hvalid
    have hbyte : BitVec.ofNat 8 (r.brightness.toNat % 32) = r.brightness := by
      rw [Nat.mod_eq_of_lt (by omega), BitVec.ofNat_toNat, BitVec.setWidth_eq]
    obtain ⟨B, hexec, hN, -, hfields⟩ := encProCfgLaysOutRecord r s hs
    obtain ⟨hb, hblink, hA, hpov2, hfire, hB, h12, h34, h56, -⟩ := hfields
    refine ⟨B, hexec, ?_⟩
    have hrecord : proConfigOf u.cfg B = r := by
      simp only [proConfigOf, hb, hblink, hA, hpov2, hfire, hB, h12, h34, h56, hcode, ledDecode_ledEncode _ _ hled,
        hbyte, Bool.not_not]
    rw [decProCfgReadsFields B u hN.ge hu, hrecord]

/-- The encoding of what a Pro frame decodes to is the frame exactly for the canonical frames of rule R130. -/
theorem encProState_proStateOf_iff (cfg : Config) {B : BitBuffer} (hwf : B.wf = true) (hN : B.N = 56) :
    encProState (proStateOf cfg B) = B ↔
      rawBit B 20 = false ∧ rawBit B 21 = false ∧ rawField B 32 4 ≤ 8 ∧
        ¬(rawBit B 45 = true ∧ rawBit B 46 = true) ∧ ¬(rawBit B 45 = true ∧ rawBit B 47 = true) ∧
        ¬(rawBit B 46 = true ∧ rawBit B 47 = true) := by
  have hreserved : rawField B 20 2 = 0 ↔ rawBit B 20 = false ∧ rawBit B 21 = false := by
    simp [rawField]
  have hlow : ∀ i j, rawField B i 8 = (BitVec.ofNat 16 (rawField B i 8 + 256 * rawField B j 2)).toNat % 256 :=
    fun i j => (axis_lowByte (rawField_lt B i 8) _).symm
  have hhigh : ∀ i j, rawField B j 2 = (BitVec.ofNat 16 (rawField B i 8 + 256 * rawField B j 2)).toNat / 256 % 4 :=
    fun i j => (axis_highBits (rawField_lt B i 8) (rawField_lt B j 2)).symm
  obtain ⟨hright, hdown, hleft, hup⟩ := directionOf_getLsbD (rawBit B 37) (rawBit B 38) (rawBit B 39) (rawBit B 36)
  rw [encProState_eq_iff hwf hN, ← modeBits_proMode_iff cfg, hreserved, ← proHat1Code_proHat1Dir_iff cfg]
  simp only [proStateWrites, proStateOf, List.forall_mem_cons, List.not_mem_nil, false_imp_iff, implies_true, and_true,
    true_and, lowByte_value, highBits_value, proHat1Code_value, rawField_one_eq_iff, hright, hdown, hleft, hup, ← hlow,
    ← hhigh, and_assoc]
  exact Iff.rfl

/-- The encoding of what a Pro config decodes to has its 19 bits (rule R130). -/
theorem rawBit_encProCfg_proConfigOf {cfg : Config} (hled : cfg.ledCode.wf = true) (B : BitBuffer) :
    ∀ i < 19, rawBit (encProCfg cfg.ledCode (proConfigOf cfg B)) i = rawBit B i := by
  have hcolour : ∀ i, ledEncode cfg.ledCode (ledDecode cfg.ledCode (rawField B i 2)) % 2 ^ 2 = rawField B i 2 := by
    intro i
    rw [ledEncode_value, ledEncode_ledDecode hled (rawField_lt B i 2)]
  have hread : ∀ f ∈ proCfgWrites cfg.ledCode (proConfigOf cfg B),
      rawField B f.start f.width = f.value % 2 ^ f.width := by
    simp only [proCfgWrites, proConfigOf, List.forall_mem_cons, List.not_mem_nil, false_imp_iff, implies_true, and_true,
      brightness_value, rawField_one_eq_iff, Bool.not_not, brightness_roundTrip (rawField_lt B 0 5), hcolour]
  refine rawBit_eq_of_fields_eq proCfgPlaces_cover ?_
  rw [← proCfgWrites_places cfg.ledCode (proConfigOf cfg B), List.forall_mem_map]
  exact fun f hf => (encProCfg_field hf).trans (hread f hf).symm

/-- Operations that answer results and change nothing else end alike exactly if the results are the same. -/
theorem next_returned_inj {s : State} {r r' : Result} {cs : List PrimCall} :
    (Host.Outcome.next (s.returned r cs) : Out) = .next (s.returned r' cs) ↔ r = r' := by
  refine ⟨fun h => ?_, fun h => h ▸ rfl⟩
  injection h with hstate
  exact congrArg State.result hstate

/-- Settles O20: the record the decode answers is the one the frame stands for, so the encode writes the frame again
where the fields of the record say so. -/
theorem proDecodeThenEncode : Obligations.ProDecodeThenEncode := by
  refine ⟨fun B s t r hwf hN hcur _ _ hdec hrec => ?state, fun B s t r hwf hN hcur hled hdec hrec => ?config⟩
  case state =>
    rw [decProStateReadsFields B s hN.ge hcur] at hdec
    cases hdec
    cases hrec
    rw [exec_encProState rfl, next_returned_inj, Result.buffer.injEq]
    exact encProState_proStateOf_iff s.cfg hwf hN
  case config =>
    rw [decProCfgReadsFields B s hN.ge hcur] at hdec
    cases hdec
    cases hrec
    exact ⟨_, exec_encProCfg rfl _, encProCfg_N _ _, rawBit_encProCfg_proConfigOf hled B⟩

end Sys2Proof.Machine
end

section
/-! The checksum (O14, O16, O23): XOR over the bytes, so that a change of one byte is a change of the XOR by the same
bits. -/

namespace Sys2Proof.Machine
open Sys2Proof.Claims

/-! ## The XOR of the first bytes -/

theorem xorBytes_seven (buf : BitBuffer) : xorBytes buf 7 = xorOfSeven buf := by
  simp [xorBytes, xorOfSeven]

/-- The checksum is right exactly when the XOR of all eight bytes is 0 (rules R95, R146). -/
theorem xorBytes_eight_eq_zero_iff (buf : BitBuffer) : xorBytes buf 8 = 0#8 ↔ rawByte buf 7 = xorOfSeven buf := by
  rw [xorBytes, xorBytes_seven, eq_comm (a := rawByte buf 7)]
  exact BitVec.xor_eq_zero_iff

theorem xorBytes_congr {A B : BitBuffer} {n : Nat} (h : ∀ k < n, rawByte A k = rawByte B k) :
    xorBytes A n = xorBytes B n := by
  induction n with
  | zero => rfl
  | succ n ih => rw [xorBytes, xorBytes, ih fun k hk => h k (by omega), h n (by omega)]

section
variable {buf : BitBuffer} {k n : Nat}

theorem rawByte_rawPutByte_of_ne (v : Byte) {j : Nat} (hk : k < buf.bytes.length) (h : j ≠ k) :
    rawByte (rawPutByte buf k v) j = rawByte buf j := by
  rw [rawByte_rawPutByte _ _ _ _ hk, if_neg h]

theorem xorBytes_rawPutByte_of_le (v : Byte) (hk : k < buf.bytes.length) (h : n ≤ k) :
    xorBytes (rawPutByte buf k v) n = xorBytes buf n :=
  xorBytes_congr fun _ _ => rawByte_rawPutByte_of_ne v hk (by omega)

/-- The XOR changes by what the byte changes by. -/
theorem xorBytes_rawPutByte_of_lt (v : Byte) (hk : k < buf.bytes.length) (h : k < n) :
    xorBytes (rawPutByte buf k v) n = xorBytes buf n ^^^ (rawByte buf k ^^^ v) := by
  induction n with
  | zero => omega
  | succ n ih =>
    rw [xorBytes, xorBytes]
    rcases Nat.lt_succ_iff_lt_or_eq.mp h with hlt | rfl
    · rw [ih hlt, rawByte_rawPutByte_of_ne v hk (by omega)]
      ac_rfl
    · rw [xorBytes_rawPutByte_of_le v hk le_rfl, rawByte_rawPutByte _ _ _ _ hk, if_pos rfl, BitVec.xor_assoc,
        ← BitVec.xor_assoc (rawByte buf k), BitVec.xor_self, BitVec.zero_xor]

/-- A frame of which one byte has changed has a wrong checksum (rule R146). -/
theorem checksum_wrong_of_byte_changed {v : Byte} (hlen : buf.bytes.length = 8) (hk : k < 8)
    (hsum : rawByte buf 7 = xorOfSeven buf) (hv : rawByte buf k ≠ v) :
    rawByte (rawPutByte buf k v) 7 ≠ xorOfSeven (rawPutByte buf k v) := by
  rw [← xorBytes_eight_eq_zero_iff] at hsum
  rw [Ne, ← xorBytes_eight_eq_zero_iff, xorBytes_rawPutByte_of_lt v (by omega) hk, hsum, BitVec.zero_xor]
  exact mt BitVec.xor_eq_zero_iff.mp hv

end

theorem ne_putBitInByte_not (x : Byte) {j : Nat} (hj : j < 8) : x ≠ putBitInByte x j (!x.getLsbD j) := by
  intro h
  have hbit := getLsbD_putBitInByte x (!x.getLsbD j) j hj j hj
  rw [← h, if_pos rfl] at hbit
  exact (Bool.eq_not_self _).mp hbit

/-! ## The operations -/

/-- Settles O14: what the fields and the checksum of a long enough buffer are decides what the decode ends with. -/
theorem decStdStateTestsChecksum : Obligations.DecStdStateTestsChecksum := by
  intro buf s hN hcur
  have hexec := exec_decStdState hcur buf
  rw [decStdState_eq hN, orRangeFault_ok] at hexec
  refine ⟨fun hsum => ?right, fun hsum => ⟨Config.freeRecord s.free, ?wrong⟩⟩
  case right =>
    rw [hexec, if_pos hsum]
    rfl
  case wrong =>
    rw [hexec, if_neg hsum]
    rfl

/-- Settles O16: the seven bytes are in range, so the operation answers their XOR. -/
theorem checksumIsXorOfSevenBytes : Obligations.ChecksumIsXorOfSevenBytes := by
  refine ⟨fun buf s hN hcur => ?run, fun buf a hwf => ?code⟩
  case run => rw [exec_checksum hcur, checksumOf_eq hN, orRangeFault_ok]
  case code => exact decode_of_decodeOp rfl hwf

/-- Settles O23: the bit is one of a byte, and a frame of which one byte has changed has a wrong checksum. -/
theorem everySingleBitErrorDetected : Obligations.EverySingleBitErrorDetected := by
  intro B s i hwf hN hsum hi hcur
  obtain ⟨-, hlen⟩ := (BitBuffer.wf_iff B).mp hwf
  rw [hN] at hlen
  have hchanged : rawByte B (i / 8) ≠ putBitInByte (rawByte B (i / 8)) (i % 8) (!rawBit B i) :=
    ne_putBitInByte_not _ (Nat.mod_lt i (by decide))
  have hwrong := checksum_wrong_of_byte_changed hlen (by omega) hsum hchanged
  obtain ⟨-, hfails⟩ := decStdStateTestsChecksum (rawPutBit B i (!rawBit B i)) s (by simp [hN]) hcur
  exact hfails hwrong

end Sys2Proof.Machine
end

section
/-! The Std codec (O13, O15, O21, O22): as in the Pro codec an encode is a list of writes at places of their own; the
checksum stands after them in byte 7, and is what makes two frames with the same 56 payload bits equal. -/

namespace Sys2Proof.Machine
open Sys2Proof.Claims

/-! ## The writes of ENC.STD.STATE -/

/-- The writes of `encStdPayload` (rule R140); the four bits of the second hat are one field, the Direction's own bits
(rule R143). -/
def stdStateWrites (r : JoystickState) : List FieldWrite :=
  [⟨⟨0, 8⟩, r.x.toNat &&& 0xFF⟩, ⟨⟨16, 3⟩, (r.x.toNat >>> 8) &&& 7⟩, ⟨⟨8, 8⟩, r.y.toNat &&& 0xFF⟩,
    ⟨⟨19, 3⟩, (r.y.toNat >>> 8) &&& 7⟩, ⟨⟨24, 8⟩, r.z.toNat &&& 0xFF⟩, ⟨⟨22, 2⟩, (r.z.toNat >>> 8) &&& 3⟩,
    ⟨⟨32, 4⟩, stdHat1Code r.hat1⟩, ⟨⟨36, 4⟩, r.hat2.toNat⟩, ⟨⟨40, 1⟩, bitOf r.trigger1⟩,
    ⟨⟨41, 1⟩, bitOf r.trigger2⟩, ⟨⟨42, 1⟩, bitOf r.fire⟩, ⟨⟨43, 1⟩, bitOf r.a⟩, ⟨⟨44, 1⟩, bitOf r.b⟩,
    ⟨⟨45, 1⟩, bitOf r.c⟩, ⟨⟨46, 1⟩, bitOf r.pinkie⟩, ⟨⟨47, 1⟩, bitOf (decide (r.mode = .mode1))⟩,
    ⟨⟨48, 1⟩, bitOf r.t1⟩, ⟨⟨49, 1⟩, bitOf r.t2⟩, ⟨⟨50, 1⟩, bitOf r.t3⟩, ⟨⟨51, 1⟩, bitOf r.t4⟩,
    ⟨⟨52, 1⟩, bitOf r.t5⟩, ⟨⟨53, 1⟩, bitOf r.t6⟩, ⟨⟨54, 2⟩, stdModeField r.mode⟩]

/-- The places of the fields of rule R90 but the checksum, the same for every record. -/
def stdStatePlaces : List Place := (stdStateWrites .defaults).map (·.toPlace)

/-- The bits of the second hat, put one by one, are the field of its value (rule R143). -/
theorem rawPutBit_hat2 (buf : BitBuffer) (d : Direction) :
    rawPutBit (rawPutBit (rawPutBit (rawPutBit buf 36 (d.getLsbD 0)) 37 (d.getLsbD 1)) 38 (d.getLsbD 2)) 39
      (d.getLsbD 3) = rawPutField buf 36 4 d.toNat := rfl

theorem encStdPayload_eq_putFields (r : JoystickState) :
    encStdPayload r = putFields (zeros 64) (stdStateWrites r) := by
  simp only [encStdPayload]
  rw [rawPutBit_hat2]
  simp only [rawPutBit_eq_rawPutField]
  rfl

theorem encStdPayload_length (r : JoystickState) : (encStdPayload r).bytes.length = 8 := by
  simp [encStdPayload, byteCount]

theorem encStdState_length (r : JoystickState) : (encStdState r).bytes.length = 8 := by
  rw [encStdState, rawPutByte_length, encStdPayload_length]

theorem stdStateWrites_places (r : JoystickState) : (stdStateWrites r).map (·.toPlace) = stdStatePlaces := rfl

theorem stdStatePlaces_placed : Placed 56 stdStatePlaces := by decide

theorem stdStatePlaces_cover : ∀ i < 56, ∃ p ∈ stdStatePlaces, p.covers i := by decide

/-- A field is the bits it covers. -/
theorem rawField_congr {A B : BitBuffer} {s w : Nat} (h : ∀ j < w, rawBit A (s + j) = rawBit B (s + j)) :
    rawField A s w = rawField B s w := by
  induction w with
  | zero => rfl
  | succ w ih => rw [rawField, rawField, ih fun j hj => h j (by omega), h w (by omega)]

/-- The checksum is written beside the payload. -/
theorem rawBit_encStdState (r : JoystickState) {i : Nat} (hi : i < 56) :
    rawBit (encStdState r) i = rawBit (encStdPayload r) i := by
  have hlen : 7 < (encStdPayload r).bytes.length := by rw [encStdPayload_length]; decide
  rw [rawBit, encStdState, rawByte_rawPutByte_of_ne _ hlen (by omega), ← rawBit]

theorem encStdState_field {r : JoystickState} {f : FieldWrite} (hf : f ∈ stdStateWrites r) :
    rawField (encStdState r) f.start f.width = f.value % 2 ^ f.width := by
  have hplaced : Placed 56 ((stdStateWrites r).map (·.toPlace)) := stdStateWrites_places r ▸ stdStatePlaces_placed
  have hfits : f.start + f.width ≤ 56 := hplaced.1 _ (List.mem_map_of_mem hf)
  rw [← rawField_putFields (buf := zeros 64) (by decide) hplaced hf, ← encStdPayload_eq_putFields]
  exact rawField_congr fun j hj => rawBit_encStdState r (by omega)

/-- An encoded record is a valid frame (rules R95, R140). -/
theorem encStdState_checksum (r : JoystickState) : rawByte (encStdState r) 7 = xorOfSeven (encStdState r) := by
  have hlen : 7 < (encStdPayload r).bytes.length := by rw [encStdPayload_length]; decide
  rw [← xorBytes_seven, encStdState, xorBytes_rawPutByte_of_le _ hlen le_rfl, rawByte_rawPutByte _ _ _ _ hlen,
    if_pos rfl]

/-- Frames with right checksums are equal if their payloads are. -/
theorem stdFrame_ext {A B : BitBuffer} (hA : A.wf = true) (hB : B.wf = true) (hAN : A.N = 64) (hBN : B.N = 64)
    (hAsum : rawByte A 7 = xorOfSeven A) (hBsum : rawByte B 7 = xorOfSeven B)
    (h : ∀ i < 56, rawBit A i = rawBit B i) : A = B := by
  have hpayload : ∀ k < 7, rawByte A k = rawByte B k := fun k hk => by
    refine BitVec.eq_of_getLsbD_eq fun j hj => ?_
    rw [getLsbD_rawByte A k hj, getLsbD_rawByte B k hj, h _ (by omega)]
  have hsum : rawByte A 7 = rawByte B 7 := by
    rw [hAsum, hBsum, ← xorBytes_seven, ← xorBytes_seven, xorBytes_congr hpayload]
  refine eq_of_rawBit_eq hA hB (hAN.trans hBN.symm) (by rw [hAN]; rfl) fun i hi => ?_
  rcases Nat.lt_or_ge i 56 with hlow | hhigh
  · exact h i hlow
  · have hbyte : i / 8 = 7 := by omega
    rw [rawBit, rawBit, hbyte, hsum]

/-- A frame with a right checksum is the encoding of a record exactly when it holds each of its writes. -/
theorem encStdState_eq_iff {r : JoystickState} {B : BitBuffer} (hwf : B.wf = true) (hN : B.N = 64)
    (hsum : rawByte B 7 = xorOfSeven B) :
    encStdState r = B ↔ ∀ f ∈ stdStateWrites r, rawField B f.start f.width = f.value % 2 ^ f.width := by
  constructor
  · rintro rfl
    exact fun f => encStdState_field
  · intro hfields
    refine stdFrame_ext (encStdState_wf r) hwf (encStdState_N r) hN (encStdState_checksum r) hsum
      (rawBit_eq_of_fields_eq stdStatePlaces_cover ?_)
    rw [← stdStateWrites_places r, List.forall_mem_map]
    exact fun f hf => (encStdState_field hf).trans (hfields f hf).symm

/-! ## The writes of ENC.STD.CFG -/

/-- The writes of `encStdCfg` (rule R148). -/
def stdCfgWrites (r : StdConfig) : List FieldWrite :=
  [⟨⟨0, 7⟩, r.brightness.toNat &&& 0x7F⟩, ⟨⟨7, 1⟩, bitOf r.pov1Blink⟩]

/-- The places of the fields of rule R96, the same for every record. -/
def stdCfgPlaces : List Place := (stdCfgWrites .defaults).map (·.toPlace)

theorem encStdCfg_eq_putFields (r : StdConfig) : encStdCfg r = putFields (zeros 8) (stdCfgWrites r) := by
  rw [encStdCfg, rawPutBit_eq_rawPutField]
  rfl

theorem encStdCfg_length (r : StdConfig) : (encStdCfg r).bytes.length = 1 := by
  simp [encStdCfg, byteCount]

theorem stdCfgWrites_places (r : StdConfig) : (stdCfgWrites r).map (·.toPlace) = stdCfgPlaces := rfl

theorem stdCfgPlaces_placed : Placed 8 stdCfgPlaces := by decide

theorem stdCfgPlaces_cover : ∀ i < 8, ∃ p ∈ stdCfgPlaces, p.covers i := by decide

theorem encStdCfg_field {r : StdConfig} {f : FieldWrite} (hf : f ∈ stdCfgWrites r) :
    rawField (encStdCfg r) f.start f.width = f.value % 2 ^ f.width := by
  rw [encStdCfg_eq_putFields]
  exact rawField_putFields (n := 8) (by decide) (stdCfgWrites_places r ▸ stdCfgPlaces_placed) hf

/-- A config byte is the encoding of a record exactly when it holds each of its writes. -/
theorem encStdCfg_eq_iff {r : StdConfig} {B : BitBuffer} (hwf : B.wf = true) (hN : B.N = 8) :
    encStdCfg r = B ↔ ∀ f ∈ stdCfgWrites r, rawField B f.start f.width = f.value % 2 ^ f.width := by
  constructor
  · rintro rfl
    exact fun f => encStdCfg_field
  · intro hfields
    refine eq_of_rawBit_eq (encStdCfg_wf r) hwf ((encStdCfg_N r).trans hN.symm) (by rw [encStdCfg_N]; rfl)
      (rawBit_eq_of_fields_eq (encStdCfg_N r ▸ stdCfgPlaces_cover) ?_)
    rw [← stdCfgWrites_places r, List.forall_mem_map]
    exact fun f hf => (encStdCfg_field hf).trans (hfields f hf).symm

/-! ## The values of the fields -/

theorem highThree_value (x : Nat) : ((x >>> 8) &&& 7) % 2 ^ 3 = x / 256 % 8 := by
  rw [← Nat.shiftRight_eq_div_pow x 8]
  exact and_ones_mod (x >>> 8) 3

theorem stdBrightness_value (x : Nat) : (x &&& 0x7F) % 2 ^ 7 = x % 128 := and_ones_mod x 7

theorem stdBrightness_roundTrip {n : Nat} (hn : n < 2 ^ 7) : (BitVec.ofNat 8 n).toNat % 128 = n := by
  rw [BitVec.toNat_ofNat]
  omega

theorem stdHat1Code_le : ∀ d : Direction, stdHat1Code d ≤ 8 := by decide

theorem stdHat1Code_value (d : Direction) : stdHat1Code d % 2 ^ 4 = stdHat1Code d :=
  Nat.mod_eq_of_lt (Nat.lt_of_le_of_lt (stdHat1Code_le d) (by decide))

theorem direction_value (d : Direction) : d.toNat % 2 ^ 4 = d.toNat := Nat.mod_eq_of_lt d.isLt

theorem stdModeField_value (m : Mode) : stdModeField m % 2 ^ 2 = stdModeField m := by
  cases m <;> rfl

/-! ## The encodes and the config codec -/

section
variable {s : State} (h : s.cur = none)
include h

theorem exec_encStdState (r : JoystickState) :
    exec (.encStdState r) s = .next (s.returned (.buffer (encStdState r)) []) := by
  rw [exec, execEncStdState, oneStep_rest h]
  rfl

theorem exec_encStdCfg (r : StdConfig) :
    exec (.encStdCfg r) s = .next (s.returned (.buffer (encStdCfg r)) []) := by
  rw [exec, execEncStdCfg, oneStep_rest h]
  rfl

theorem exec_decStdCfg_of_long {buf : BitBuffer} (hN : 8 ≤ buf.N) :
    exec (.decStdCfg buf) s = .next { s.returned (.stdConfig (stdConfigOf buf) true) [] with ok := true } := by
  rw [exec_decStdCfg h, decStdCfg_eq hN, orRangeFault_ok]

end

/-- Settles O13: each field is one of the writes, and the checksum is that of the payload. -/
theorem encStdStateLaysOutRecord : Obligations.EncStdStateLaysOutRecord := by
  intro r s hcur
  have hfields : ∀ f ∈ stdStateWrites r, _ := fun f => encStdState_field
  simp only [stdStateWrites, List.forall_mem_cons, lowByte_value, highThree_value, highBits_value, stdHat1Code_value,
    direction_value, stdModeField_value, rawField_one_eq_iff] at hfields
  obtain ⟨hx0, hx1, hy0, hy1, hz0, hz1, hhat1, hhat2, htrigger1, htrigger2, hfire, ha, hb, hc, hpinkie, hmode1, ht1,
    ht2, ht3, ht4, ht5, ht6, hmode, -⟩ := hfields
  exact ⟨_, exec_encStdState hcur r, encStdState_N r, encStdState_length r, hx0, hx1, hy0, hy1, hz0, hz1, hhat1, hhat2,
    htrigger1, htrigger2, hfire, ha, hb, hc, hpinkie, hmode1, ht1, ht2, ht3, ht4, ht5, ht6, hmode,
    encStdState_checksum r⟩

/-- Every config byte is the encoding of what it decodes to (rule R149). -/
theorem encStdCfg_stdConfigOf {B : BitBuffer} (hwf : B.wf = true) (hN : B.N = 8) :
    encStdCfg (stdConfigOf B) = B := by
  rw [encStdCfg_eq_iff hwf hN]
  simp only [stdCfgWrites, stdConfigOf, List.forall_mem_cons, List.not_mem_nil, false_imp_iff, implies_true, and_true,
    stdBrightness_value, rawField_one_eq_iff, stdBrightness_roundTrip (rawField_lt B 0 7)]

/-- Settles O15: the two fields are the two writes, and they are all of the byte. -/
theorem stdConfigCodec : Obligations.StdConfigCodec := by
  refine ⟨fun r s hcur => ?encode, fun buf s hN hcur => exec_decStdCfg_of_long hcur hN,
    fun buf s t r hwf hN hcur hdec hrec => ?again, fun r a => decode_of_decodeOp rfl rfl,
    fun buf a hwf => decode_of_decodeOp rfl hwf⟩
  case encode =>
    have hfields : ∀ f ∈ stdCfgWrites r, _ := fun f => encStdCfg_field
    simp only [stdCfgWrites, List.forall_mem_cons, stdBrightness_value, rawField_one_eq_iff] at hfields
    obtain ⟨hbright, hblink, -⟩ := hfields
    exact ⟨_, exec_encStdCfg hcur r, encStdCfg_N r, encStdCfg_length r, hbright, hblink⟩
  case again =>
    rw [exec_decStdCfg_of_long hcur hN.ge] at hdec
    cases hdec
    cases hrec
    rw [exec_encStdCfg rfl, encStdCfg_stdConfigOf hwf hN]

/-! ## The tables and the split axes, inverted -/

/-- A Std axis of 11 bits is its low byte and the three bits above it (rule R140). -/
theorem stdAxis_of_bytes {x : Axis} (hx : x.toNat ≤ 2047) :
    BitVec.ofNat 16 (x.toNat % 256 + 256 * (x.toNat / 256 % 8)) = x := by
  refine BitVec.eq_of_toNat_eq ?_
  rw [BitVec.toNat_ofNat]
  omega

theorem axis_highThree {lo hi : Nat} (hlo : lo < 2 ^ 8) (hhi : hi < 2 ^ 3) :
    (BitVec.ofNat 16 (lo + 256 * hi)).toNat / 256 % 8 = hi := by
  rw [BitVec.toNat_ofNat]
  omega

/-- The second hat is read as the number of its field (rule R143). -/
theorem directionOf_rawBit (buf : BitBuffer) (s : Nat) :
    directionOf (rawBit buf s) (rawBit buf (s + 1)) (rawBit buf (s + 2)) (rawBit buf (s + 3)) =
      BitVec.ofNat 4 (rawField buf s 4) := by
  simp [directionOf, rawField, bitOf, mul_ite]

/-- A mode is read from the bit and the field it is written to (rule R144). -/
theorem stdMode_stdModeField (cfg : Config) (m : Mode) :
    stdMode cfg (decide (m = .mode1)) (stdModeField m) = m := by
  cases m <;> rfl

/-- The codes that stand for a Direction are those of rule R92, whatever the reserved ones decode to. -/
theorem stdHat1Code_stdHat1Dir_iff (cfg : Config) (n : Nat) : n = stdHat1Code (stdHat1Dir cfg n) ↔ n ≤ 8 := by
  constructor
  · intro h
    rw [h]
    exact stdHat1Code_le _
  · intro h
    interval_cases n <;> rfl

/-- The mode patterns that an encode can write are those with the bit only beside a zero field, and no field 3, whatever
the others decode to. -/
theorem modePattern_stdMode_iff (cfg : Config) (m : Bool) {f : Nat} (hf : f < 2 ^ 2) :
    (m = decide (stdMode cfg m f = .mode1) ∧ f = stdModeField (stdMode cfg m f)) ↔
      f ≠ 3 ∧ (f ≠ 0 → m = false) := by
  constructor
  · generalize stdMode cfg m f = mode
    rintro ⟨rfl, rfl⟩
    cases mode <;> decide
  · rintro ⟨h3, hbit⟩
    match f, m with
    | 0, false | 0, true | 1, false | 2, false => exact ⟨rfl, rfl⟩
    | 1, true | 2, true => exact absurd (hbit (by decide)) (by decide)
    | 3, _ => exact absurd rfl h3

/-! ## The round trips -/

theorem validStdState_iff (r : JoystickState) : validStdState r = true ↔
    r.x.toNat ≤ 2047 ∧ r.y.toNat ≤ 2047 ∧ r.z.toNat ≤ 1023 ∧ validDirection r.hat1 = true := by
  simp [validStdState, and_assoc]

/-- Settles O21: each field is read where O13 and O15 say it is written, its table inverts (O18), and the checksum is
right. -/
theorem stdRecordsRoundTrip : Obligations.StdRecordsRoundTrip := by
  refine ⟨fun r s u hvalid hs hu => ?state, fun r s u hvalid hs hu => ?config⟩
  case state =>
    obtain ⟨hx, hy, hz, hhat⟩ := (validStdState_iff r).mp hvalid
    obtain ⟨B, hexec, hN, -, hx0, hx1, hy0, hy1, hz0, hz1, hhat1, hhat2, htrigger1, htrigger2, hfire, ha, hb, hc,
      hpinkie, hmode1, ht1, ht2, ht3, ht4, ht5, ht6, hmode, hsum⟩ := encStdStateLaysOutRecord r s hs
    refine ⟨B, hexec, ?_⟩
    have hrecord : stdStateOf u.cfg B = r := by
      rw [stdStateOf, directionOf_rawBit B 36, hx0, hx1, hy0, hy1, hz0, hz1, hhat1, hhat2, htrigger1, htrigger2, hfire,
        ha, hb, hc, hpinkie, hmode1, ht1, ht2, ht3, ht4, ht5, ht6, hmode, stdAxis_of_bytes hx, stdAxis_of_bytes hy,
        axis_of_bytes hz, stdHat1Dir_stdHat1Code _ _ hhat, BitVec.ofNat_toNat, BitVec.setWidth_eq,
        stdMode_stdModeField]
    obtain ⟨hreads, -⟩ := decStdStateTestsChecksum B u (by omega) hu
    rw [hreads hsum, hrecord]
  case config =>
    have hbright : r.brightness.toNat ≤ 127 := by simpa [validStdConfig] using hvalid
    have hbyte : BitVec.ofNat 8 (r.brightness.toNat % 128) = r.brightness := by
      rw [Nat.mod_eq_of_lt (by omega), BitVec.ofNat_toNat, BitVec.setWidth_eq]
    obtain ⟨hencode, hdecode, -⟩ := stdConfigCodec
    obtain ⟨B, hexec, hN, -, hb, hblink⟩ := hencode r s hs
    refine ⟨B, hexec, ?_⟩
    have hrecord : stdConfigOf B = r := by rw [stdConfigOf, hb, hblink, hbyte]
    rw [hdecode B u hN.ge hu, hrecord]

/-- The encoding of what a Std frame decodes to is the frame exactly for the canonical frames of rule R151. -/
theorem encStdState_stdStateOf_iff (cfg : Config) {B : BitBuffer} (hwf : B.wf = true) (hN : B.N = 64)
    (hsum : rawByte B 7 = xorOfSeven B) :
    encStdState (stdStateOf cfg B) = B ↔
      rawField B 32 4 ≤ 8 ∧ rawField B 54 2 ≠ 3 ∧ (rawField B 54 2 ≠ 0 → rawBit B 47 = false) := by
  have hlow : ∀ i j w, rawField B i 8 = (BitVec.ofNat 16 (rawField B i 8 + 256 * rawField B j w)).toNat % 256 :=
    fun i j w => (axis_lowByte (rawField_lt B i 8) _).symm
  have hhighTwo : ∀ i j, rawField B j 2 = (BitVec.ofNat 16 (rawField B i 8 + 256 * rawField B j 2)).toNat / 256 % 4 :=
    fun i j => (axis_highBits (rawField_lt B i 8) (rawField_lt B j 2)).symm
  have hhighThree : ∀ i j,
      rawField B j 3 = (BitVec.ofNat 16 (rawField B i 8 + 256 * rawField B j 3)).toNat / 256 % 8 :=
    fun i j => (axis_highThree (rawField_lt B i 8) (rawField_lt B j 3)).symm
  have hhat2 : rawField B 36 4 =
      (directionOf (rawBit B 36) (rawBit B 37) (rawBit B 38) (rawBit B 39)).toNat := by
    rw [directionOf_rawBit B 36, BitVec.toNat_ofNat, Nat.mod_eq_of_lt (rawField_lt B 36 4)]
  rw [encStdState_eq_iff hwf hN hsum, ← modePattern_stdMode_iff cfg (rawBit B 47) (rawField_lt B 54 2),
    ← stdHat1Code_stdHat1Dir_iff cfg]
  simp only [stdStateWrites, stdStateOf, List.forall_mem_cons, List.not_mem_nil, false_imp_iff, implies_true, and_true,
    true_and, lowByte_value, highThree_value, highBits_value, stdHat1Code_value, Nat.mod_eq_of_lt (rawField_lt B 36 4),
    stdModeField_value, rawField_one_eq_iff, ← hlow, ← hhighTwo, ← hhighThree, ← hhat2]
  exact Iff.rfl

/-- Settles O22: the record the decode answers is the one the frame stands for, so the encode writes the frame again
where the fields of the record say so. -/
theorem stdDecodeThenEncode : Obligations.StdDecodeThenEncode := by
  intro B s t r hwf hN hcur _ _ hsum hdec hrec
  obtain ⟨hreads, -⟩ := decStdStateTestsChecksum B s (by omega) hcur
  rw [hreads hsum] at hdec
  cases hdec
  cases hrec
  rw [exec_encStdState rfl, next_returned_inj, Result.buffer.injEq]
  exact encStdState_stdStateOf_iff s.cfg hwf hN hsum

end Sys2Proof.Machine
end

section
/-! Timing (O25, O26, O27): what EXPIRED depends on, said on natural numbers, and each place of a wait as an equation. -/

namespace Sys2Proof.Machine

/-! ## EXPIRED -/

/-- The sign test of rule R161: a deadline is expired when the wrapped difference is 0 or has bit 31 set. -/
theorem expiredAt_iff (dl now : Word) :
    expiredAt dl now = true ↔ (dl - now).toNat = 0 ∨ 2 ^ 31 ≤ (dl - now).toNat := by
  rw [expiredAt, decide_eq_true_iff, sint32, BitVec.toInt_eq_toNat_cond]
  split <;> omega

/-- Only the time since the deadline was computed counts, not where the clock stood then (rule R165). -/
theorem expiredAt_add_add (now us elapsed : Word) : expiredAt (now + us) (now + elapsed) = expiredAt us elapsed := by
  rw [expiredAt, add_sub_add_left_eq_sub, expiredAt]

section
variable {us : Word} {e : Nat}

/-- Below 2^31 on both sides the difference is negative exactly as that of the natural numbers. -/
theorem expiredAt_ofNat_of_lt (hus : us.toNat < 2 ^ 31) (he : e < 2 ^ 31) :
    expiredAt us (BitVec.ofNat 32 e) = decide (us.toNat ≤ e) := by
  rw [Bool.eq_iff_iff, expiredAt_iff, decide_eq_true_iff, BitVec.toNat_sub, BitVec.toNat_ofNat]
  omega

/-- A duration of at least 2^31 has bit 31 set until the time passed brings it below (rule R165). -/
theorem expiredAt_ofNat_of_ge (hus : 2 ^ 31 ≤ us.toNat) (he : e ≤ us.toNat - 2 ^ 31) :
    expiredAt us (BitVec.ofNat 32 e) = true := by
  have hlt : us.toNat < 2 ^ 32 := us.isLt
  rw [expiredAt_iff, BitVec.toNat_sub, BitVec.toNat_ofNat]
  omega

end

/-! ## Calls as the statements name them -/

section
variable (s : State)

theorem pinRead_eq_called (p : InPin) : pinRead p s = s.called (.pinRead p (wireLevel p s)) := rfl

theorem clockRead_eq_called : clockRead s = s.called (.clockRead s.now) := rfl

theorem delayUs_eq_called (n : Word) :
    delayUs n s = { s.called (.delayUs n) with delayLeft := n.toNat } := rfl

/-- A running operation that ends with a call. -/
theorem finish_called (r : Result) (c : PrimCall) : finish r (s.called c) = s.ends r c := rfl

/-- An operation that is started and ends with its first call. -/
theorem finish_called_launch (i : Instr) (r : Result) (c : PrimCall) :
    finish r ((launch i s).called c) = s.returned r [c] := rfl

/-- An operation that is started and goes on after its first call. -/
theorem called_launch (i : Instr) (c : PrimCall) (sub : Sub) :
    { (launch i s).called c with sub := sub } = s.started i .idle 0 sub [c] := rfl

@[simp] theorem wireLevel_launch (i : Instr) (p : InPin) : wireLevel p (launch i s) = wireLevel p s := by
  cases p <;> rfl

end

/-! ## DEADLINE and EXPIRED as operations -/

section
variable {s : State} (h : s.cur = none)
include h

theorem exec_deadline (us : Word) :
    exec (.deadline us) s = .next (s.returned (.time (s.now + us)) [.clockRead s.now]) := by
  rw [exec, execDeadline, oneStep_rest h, clockRead_eq_called, finish_called_launch]
  rfl

theorem exec_expired (dl : Word) :
    exec (.expired dl) s = .next (s.returned (.flag (expiredAt dl s.now)) [.clockRead s.now]) := by
  rw [exec, execExpired, oneStep_rest h, clockRead_eq_called, finish_called_launch]
  rfl

end

/-- Settles O25: both operations are one step with one call, and EXPIRED answers the sign test. -/
theorem deadlineAndExpired : Obligations.DeadlineAndExpired :=
  ⟨fun us _ hcur => exec_deadline hcur us, fun dl _ hcur => exec_expired hcur dl⟩

/-- Settles O26: the clock value cancels, and what is left compares the duration with the time passed. -/
theorem deadlineSurvivesClockWrap : Obligations.DeadlineSurvivesClockWrap := by
  intro us s u e _ hu hnow
  have hexec : exec (.expired (s.now + us)) u =
      .next (u.returned (.flag (expiredAt us (BitVec.ofNat 32 e))) [.clockRead u.now]) := by
    rw [exec_expired hu, hnow, expiredAt_add_add]
  refine ⟨fun hus he => ?short, fun hus he => ?long⟩
  case short => rw [hexec, expiredAt_ofNat_of_lt hus he]
  case long => rw [hexec, expiredAt_ofNat_of_ge hus he]

/-! ## One step of a wait, place by place -/

section
variable {p : InPin} {v : Bool} {dl : Word} {place : WaitPos → Sub} {reached isExpired : State → Out} {s : State}

/-- A level that is there is accepted whatever the deadline (rule R163). -/
theorem waitStep_read_of_level (h : wireLevel p s = v) :
    waitStep p v dl .read place reached isExpired s = reached (s.called (.pinRead p v)) := by
  rw [waitStep, if_pos h, pinRead_eq_called, h]

theorem waitStep_read_of_other (h : wireLevel p s = !v) :
    waitStep p v dl .read place reached isExpired s =
      .next { s.called (.pinRead p (!v)) with sub := place .test } := by
  have hne : wireLevel p s ≠ v := by simp [h]
  rw [waitStep, if_neg hne, pinRead_eq_called, h]

theorem waitStep_test_of_expired (h : expiredAt dl s.now = true) :
    waitStep p v dl .test place reached isExpired s = isExpired (s.called (.clockRead s.now)) := by
  rw [waitStep, if_pos h, clockRead_eq_called]

theorem waitStep_test_of_not_expired (h : expiredAt dl s.now = false) :
    waitStep p v dl .test place reached isExpired s =
      .next { s.called (.clockRead s.now) with sub := place (if s.cfg.busy then .read else .sleep) } := by
  rw [waitStep, h, if_neg Bool.false_ne_true, clockRead_eq_called]

theorem waitStep_sleep : waitStep p v dl .sleep place reached isExpired s =
    .next { s.called (.delayUs s.cfg.pollSleep) with
      delayLeft := s.cfg.pollSleep.toNat, sub := place .read } := by
  rw [waitStep, delayUs_eq_called]

end

/-! ## WAITPIN as an operation -/

/-- One step of WAITPIN at the place `pos`: the wait answers whether the level came (rule R162). -/
abbrev waitPinAt (p : InPin) (v : Bool) (dl : Word) (pos : WaitPos) : State → Out :=
  waitStep p v dl pos .first (fun s => .next (finish (.flag true) s)) (fun s => .next (finish (.flag false) s))

section
variable {p : InPin} {v : Bool} {dl : Word} {s : State}

/-- A WAITPIN that is started reads the pin at once. -/
theorem exec_waitPin_rest (h : s.cur = none) :
    exec (.waitPin p v dl) s = waitPinAt p v dl .read (launch (.waitPin p v dl) s) := by
  rw [exec, execWaitPin, running_rest h]
  rfl

theorem exec_waitPin_on {pos : WaitPos} (h : s.runsAt (.waitPin p v dl) (.first pos)) :
    exec (.waitPin p v dl) s = waitPinAt p v dl pos s := by
  obtain ⟨hcur, hdelay, hsub⟩ := h
  rw [exec, execWaitPin, running_on hcur hdelay]
  simp only [waitPinStep, hsub]

end

/-- Settles O27: each clause is the equation of the wait's step at that place, taken from the start or in the run. -/
theorem waitPinReadsThenTests : Obligations.WaitPinReadsThenTests := by
  intro p v dl s
  refine ⟨fun hcur hv => ?startThere, fun hcur hv => ?startOther, fun hat hv => ?readThere, fun hat hv => ?readOther,
    fun hat hexp => ?testExpired, fun hat hexp => ?testLive, fun hat => ?sleep⟩
  case startThere =>
    rw [exec_waitPin_rest hcur, waitPinAt, waitStep_read_of_level (by simpa using hv), finish_called_launch]
  case startOther =>
    rw [exec_waitPin_rest hcur, waitPinAt, waitStep_read_of_other (by simpa using hv), called_launch]
  case readThere => rw [exec_waitPin_on hat, waitPinAt, waitStep_read_of_level hv, finish_called]
  case readOther => rw [exec_waitPin_on hat, waitPinAt, waitStep_read_of_other hv]
  case testExpired => rw [exec_waitPin_on hat, waitPinAt, waitStep_test_of_expired hexp, finish_called]
  case testLive => rw [exec_waitPin_on hat, waitPinAt, waitStep_test_of_not_expired hexp]
  case sleep => rw [exec_waitPin_on hat, waitPinAt, waitStep_sleep]

end Sys2Proof.Machine
end

section
/-! The PulseWaiter (O28, O29, O30): each place of `WaitForPulse` as an equation, whatever follows its result; then the
two WAITPULSE operations, which are `WaitForPulse` with a return to HOST after it, and the callback. -/

namespace Sys2Proof.Machine

/-! ## The trigger -/

theorem runTrigger_toggleReq (s : State) : runTrigger .toggleReq s =
    { s.called (.pinWrite .ctlOut (!s.req)) with req := !s.req, outCtl := !s.req } := rfl

theorem counterRead_eq_called (s : State) : counterRead s = s.called (.counterRead s.edgeCnt) := rfl

section
variable {w : Waiter} {dl : Word} {tr : Trigger} {done : PulseResult → State → Out} {s : State}

/-- In both variants the trigger action is one step, and it is not tied to the deadline (rule R172). -/
theorem pulseStep_trigger (hsub : s.sub = .trigger) :
    pulseStep w dl tr done s = .next { runTrigger tr s with sub := afterTrigger w } := by
  simp only [pulseStep, hsub]

/-! ## The polling variant, place by place (rule R173) -/

/-- The wait for the drop is a `WaitPin(CTL_IN, 0)`, whose deadline means that no pulse has started. -/
theorem pulseStep_first {pos : WaitPos} (hsub : s.sub = .first pos) : pulseStep .polling dl tr done s =
    waitStep .ctlIn false dl pos .first (fun s => .next { s with sub := .second .read })
      (fun s => done .notStarted (setPulse .notStarted s)) s := by
  simp only [pulseStep, hsub]

/-- The wait for the return to idle is a `WaitPin(CTL_IN, 1)`, whose deadline means that a pulse has started. -/
theorem pulseStep_second {pos : WaitPos} (hsub : s.sub = .second pos) : pulseStep .polling dl tr done s =
    waitStep .ctlIn true dl pos .second (fun s => done .finished (setPulse .finished s))
      (fun s => done .started (setPulse .started s)) s := by
  simp only [pulseStep, hsub]

theorem pulseStep_first_read (hsub : s.sub = .first .read) : pulseStep .polling dl tr done s =
    .next { s.called (.pinRead .ctlIn s.wCtlIn) with sub := if s.wCtlIn then .first .test else .second .read } := by
  rw [pulseStep_first hsub]
  cases hv : s.wCtlIn with
  | false => exact waitStep_read_of_level hv
  | true => exact waitStep_read_of_other hv

theorem pulseStep_first_test_of_expired (hexp : expiredAt dl s.now = true) (hsub : s.sub = .first .test) :
    pulseStep .polling dl tr done s =
      done .notStarted { s.called (.clockRead s.now) with pwResult := .notStarted } := by
  rw [pulseStep_first hsub, waitStep_test_of_expired hexp, setPulse]

theorem pulseStep_first_test_of_not_expired (hexp : expiredAt dl s.now = false) (hsub : s.sub = .first .test) :
    pulseStep .polling dl tr done s =
      .next { s.called (.clockRead s.now) with sub := .first (if s.cfg.busy then .read else .sleep) } := by
  rw [pulseStep_first hsub, waitStep_test_of_not_expired hexp]

theorem pulseStep_first_sleep (hsub : s.sub = .first .sleep) : pulseStep .polling dl tr done s =
    .next { s.called (.delayUs s.cfg.pollSleep) with
      delayLeft := s.cfg.pollSleep.toNat, sub := .first .read } := by
  rw [pulseStep_first hsub, waitStep_sleep]

theorem pulseStep_second_read_of_idle (hv : s.wCtlIn = true) (hsub : s.sub = .second .read) :
    pulseStep .polling dl tr done s =
      done .finished { s.called (.pinRead .ctlIn true) with pwResult := .finished } := by
  rw [pulseStep_second hsub]
  exact waitStep_read_of_level hv

theorem pulseStep_second_read_of_active (hv : s.wCtlIn = false) (hsub : s.sub = .second .read) :
    pulseStep .polling dl tr done s = .next { s.called (.pinRead .ctlIn false) with sub := .second .test } := by
  rw [pulseStep_second hsub]
  exact waitStep_read_of_other hv

theorem pulseStep_second_test_of_expired (hexp : expiredAt dl s.now = true) (hsub : s.sub = .second .test) :
    pulseStep .polling dl tr done s = done .started { s.called (.clockRead s.now) with pwResult := .started } := by
  rw [pulseStep_second hsub, waitStep_test_of_expired hexp, setPulse]

theorem pulseStep_second_test_of_not_expired (hexp : expiredAt dl s.now = false) (hsub : s.sub = .second .test) :
    pulseStep .polling dl tr done s =
      .next { s.called (.clockRead s.now) with sub := .second (if s.cfg.busy then .read else .sleep) } := by
  rw [pulseStep_second hsub, waitStep_test_of_not_expired hexp]

theorem pulseStep_second_sleep (hsub : s.sub = .second .sleep) : pulseStep .polling dl tr done s =
    .next { s.called (.delayUs s.cfg.pollSleep) with
      delayLeft := s.cfg.pollSleep.toNat, sub := .second .read } := by
  rw [pulseStep_second hsub, waitStep_sleep]

/-! ## The interrupt-counted variant, place by place (rules R174, R175) -/

theorem pulseStep_snapshot (hsub : s.sub = .snapshot) : pulseStep .interruptCounted dl tr done s =
    .next { s.called (.counterRead s.edgeCnt) with baseCnt := s.edgeCnt, sub := .trigger } := by
  simp only [pulseStep, hsub, counterRead_eq_called]

theorem pulseStep_count {pos : CountPos} (hsub : s.sub = .count pos) : pulseStep .interruptCounted dl tr done s =
    countStep dl pos (fun r s => done r (setPulse r s)) s := by
  simp only [pulseStep, hsub]

theorem pulseStep_count_of_no_edge (hd : s.edgeCnt - s.baseCnt = 0) (hsub : s.sub = .count .count) :
    pulseStep .interruptCounted dl tr done s =
      .next { s.called (.counterRead s.edgeCnt) with sub := .count .test } := by
  rw [pulseStep_count hsub, countStep, if_pos hd, counterRead_eq_called]

theorem pulseStep_count_of_one_edge (hd : s.edgeCnt - s.baseCnt = 1) (hsub : s.sub = .count .count) :
    pulseStep .interruptCounted dl tr done s =
      done .finished { s.called (.counterRead s.edgeCnt) with pwResult := .finished } := by
  have hne : s.edgeCnt - s.baseCnt ≠ 0 := by simp [hd]
  rw [pulseStep_count hsub, countStep, if_neg hne, if_pos hd, counterRead_eq_called, setPulse]

theorem pulseStep_count_of_more_edges (hd : 2 ≤ (s.edgeCnt - s.baseCnt).toNat) (hsub : s.sub = .count .count) :
    pulseStep .interruptCounted dl tr done s =
      done .tooMany { s.called (.counterRead s.edgeCnt) with pwResult := .tooMany } := by
  have hne0 : s.edgeCnt - s.baseCnt ≠ 0 := fun h => by simp [h] at hd
  have hne1 : s.edgeCnt - s.baseCnt ≠ 1 := fun h => by simp [h] at hd
  rw [pulseStep_count hsub, countStep, if_neg hne0, if_neg hne1, counterRead_eq_called, setPulse]

theorem pulseStep_count_test_of_expired (hexp : expiredAt dl s.now = true) (hsub : s.sub = .count .test) :
    pulseStep .interruptCounted dl tr done s = .next { s.called (.clockRead s.now) with sub := .count .pin } := by
  rw [pulseStep_count hsub, countStep, if_pos hexp, clockRead_eq_called]

theorem pulseStep_count_test_of_not_expired (hexp : expiredAt dl s.now = false) (hsub : s.sub = .count .test) :
    pulseStep .interruptCounted dl tr done s =
      .next { s.called (.clockRead s.now) with sub := .count (if s.cfg.busy then .count else .sleep) } := by
  rw [pulseStep_count hsub, countStep, hexp, if_neg Bool.false_ne_true, clockRead_eq_called]

/-- On timeout one `pin_read` tells whether a pulse has started (rule R175). -/
theorem pulseStep_count_pin {v : Bool} (hv : s.wCtlIn = v) (hsub : s.sub = .count .pin) :
    pulseStep .interruptCounted dl tr done s =
      done (timeoutResult v) { s.called (.pinRead .ctlIn v) with pwResult := timeoutResult v } := by
  subst hv
  rw [pulseStep_count hsub]
  rfl

theorem pulseStep_count_sleep (hsub : s.sub = .count .sleep) : pulseStep .interruptCounted dl tr done s =
    .next { s.called (.delayUs s.cfg.pollSleep) with
      delayLeft := s.cfg.pollSleep.toNat, sub := .count .count } := by
  rw [pulseStep_count hsub, countStep, delayUs_eq_called]

end

/-! ## WAITPULSE as an operation -/

/-- The WAITPULSE of a variant of the PulseWaiter (rules R173, R174). -/
def waitPulse (w : Waiter) (dl : Word) (tr : Trigger) : Instr :=
  match w with
  | .polling => .waitPulsePoll dl tr
  | .interruptCounted => .waitPulseIrq dl tr

/-- What follows the result of a `WaitForPulse` that is an operation of its own: the return to HOST. -/
def returnsPulse (r : PulseResult) (s : State) : Out := .next (finish (.pulse r) s)

theorem returnsPulse_called (r : PulseResult) (c : PrimCall) (s : State) :
    returnsPulse r { s.called c with pwResult := r } = .next { s.ends (.pulse r) c with pwResult := r } := rfl

section
variable {w : Waiter} {dl : Word} {tr : Trigger} {i : Instr} {s : State}

theorem exec_waitPulse (w : Waiter) (dl : Word) (tr : Trigger) (s : State) : exec (waitPulse w dl tr) s =
    running (waiterRefusal w s) (waitPulse w dl tr) s (waitPulseStep w dl tr) := by
  cases w <;> rfl

theorem waiterRefusal_eq_none (hinst : isInstance s.cfg .std .joystickClient = true) (hwaiter : s.cfg.waiter = w)
    (hstrict : s.cfg.stdStrict = false) : waiterRefusal w s = none := by
  simp [waiterRefusal, setupRefusal_eq_none hinst fun _ => hstrict, hwaiter]

/-- A WAITPULSE that is accepted makes the first step of its `WaitForPulse` at once. -/
theorem exec_waitPulse_rest (hi : i = waitPulse w dl tr) (hcur : s.cur = none) (hnone : waiterRefusal w s = none) :
    exec i s = pulseStep w dl tr returnsPulse { launch i s with sub := pulseEntry w } := by
  subst hi
  rw [exec_waitPulse]
  simp only [running, hcur, hnone]
  rfl

/-- A WAITPULSE that runs makes the step of its `WaitForPulse`; `hstep` says what that is at its place. -/
theorem exec_waitPulse_at {sub : Sub} {out : Out} (hi : i = waitPulse w dl tr) (hat : s.runsAt i sub)
    (hstep : s.sub = sub → pulseStep w dl tr returnsPulse s = out) (hplace : sub ≠ .start := by nofun) :
    exec i s = out := by
  obtain ⟨hcur, hdelay, hsub⟩ := hat
  subst hi
  rw [exec_waitPulse, running_on hcur hdelay, ← hstep hsub, waitPulseStep]
  split
  case h_1 hstart => exact absurd (hsub.symm.trans hstart) hplace
  case h_2 => rfl

end

/-- The polling variant captures no baseline: its first step is the trigger (rule R172). -/
theorem exec_waitPulsePoll_rest {dl : Word} {tr : Trigger} {i : Instr} {s : State} (hi : i = .waitPulsePoll dl tr)
    (hcur : s.cur = none) (hnone : waiterRefusal .polling s = none) :
    exec i s = .next { runTrigger tr { launch i s with sub := .trigger } with sub := .first .read } :=
  (exec_waitPulse_rest (w := .polling) hi hcur hnone).trans (pulseStep_trigger rfl)

/-- Settles O28: the start runs the trigger; at every other place the step is the equation of `WaitForPulse` there. -/
theorem waitPulsePollSeesDropThenReturn : Obligations.WaitPulsePollSeesDropThenReturn := by
  intro dl s
  refine ⟨fun i hi hcur hinst hwaiter hstrict => ?startNone, fun i hi hcur hinst hwaiter hstrict => ?startToggle,
    fun tr i hi => ?places⟩
  case startNone => exact exec_waitPulsePoll_rest hi hcur (waiterRefusal_eq_none hinst hwaiter hstrict)
  case startToggle =>
    rw [exec_waitPulsePoll_rest hi hcur (waiterRefusal_eq_none hinst hwaiter hstrict), runTrigger_toggleReq]
    rfl
  case places =>
    replace hi : i = waitPulse .polling dl tr := hi
    refine ⟨fun hat => ?dropRead, fun hat hexp => ?dropExpired, fun hat hexp => ?dropLive, fun hat hv => ?returnIdle,
      fun hat hv => ?returnActive, fun hat hexp => ?returnExpired, fun hat hexp => ?returnLive,
      fun hat => ?dropSleep, fun hat => ?returnSleep⟩
    case dropRead => exact exec_waitPulse_at hi hat pulseStep_first_read
    case dropExpired => rw [exec_waitPulse_at hi hat (pulseStep_first_test_of_expired hexp), returnsPulse_called]
    case dropLive => exact exec_waitPulse_at hi hat (pulseStep_first_test_of_not_expired hexp)
    case returnIdle => rw [exec_waitPulse_at hi hat (pulseStep_second_read_of_idle hv), returnsPulse_called]
    case returnActive => exact exec_waitPulse_at hi hat (pulseStep_second_read_of_active hv)
    case returnExpired => rw [exec_waitPulse_at hi hat (pulseStep_second_test_of_expired hexp), returnsPulse_called]
    case returnLive => exact exec_waitPulse_at hi hat (pulseStep_second_test_of_not_expired hexp)
    case dropSleep => exact exec_waitPulse_at hi hat pulseStep_first_sleep
    case returnSleep => exact exec_waitPulse_at hi hat pulseStep_second_sleep

/-- Settles O29: the start takes the snapshot; at every other place the step is the equation of `WaitForPulse` there. -/
theorem waitPulseIrqCountsEdges : Obligations.WaitPulseIrqCountsEdges := by
  intro dl tr s i hi
  replace hi : i = waitPulse .interruptCounted dl tr := hi
  refine ⟨fun hcur hinst hwaiter hstrict => ?start, fun hat htr => ?triggerNone, fun hat htr => ?triggerToggle,
    fun hat hd => ?noEdge, fun hat hd => ?oneEdge, fun hat hd => ?moreEdges, fun hat hexp => ?testExpired,
    fun hat hexp => ?testLive, fun hat hv => ?pinIdle, fun hat hv => ?pinActive, fun hat => ?sleep⟩
  case start =>
    rw [exec_waitPulse_rest hi hcur (waiterRefusal_eq_none hinst hwaiter hstrict)]
    exact pulseStep_snapshot rfl
  case triggerNone =>
    subst htr
    exact exec_waitPulse_at hi hat pulseStep_trigger
  case triggerToggle =>
    subst htr
    rw [exec_waitPulse_at hi hat pulseStep_trigger, runTrigger_toggleReq]
    rfl
  case noEdge => exact exec_waitPulse_at hi hat (pulseStep_count_of_no_edge hd)
  case oneEdge => rw [exec_waitPulse_at hi hat (pulseStep_count_of_one_edge hd), returnsPulse_called]
  case moreEdges => rw [exec_waitPulse_at hi hat (pulseStep_count_of_more_edges hd), returnsPulse_called]
  case testExpired => exact exec_waitPulse_at hi hat (pulseStep_count_test_of_expired hexp)
  case testLive => exact exec_waitPulse_at hi hat (pulseStep_count_test_of_not_expired hexp)
  case pinIdle =>
    rw [exec_waitPulse_at hi hat (pulseStep_count_pin hv), returnsPulse_called]
    rfl
  case pinActive =>
    rw [exec_waitPulse_at hi hat (pulseStep_count_pin hv), returnsPulse_called]
    rfl
  case sleep => exact exec_waitPulse_at hi hat pulseStep_count_sleep

/-! ## EDGECB -/

/-- Settles O30: the callback's equation, in its two cases. -/
theorem edgeCallbackCountsOneEdge : Obligations.EdgeCallbackCountsOneEdge := by
  intro s
  refine ⟨fun hpending => ?pending, fun hnone => ?none⟩
  case pending => rw [exec_edgeCb, if_pos hpending]
  case none => rw [exec_edgeCb, if_neg (by omega)]

end Sys2Proof.Machine
end

section
/-! SETUP.PRO and the peeks (O32, O34): an operation of several steps that is accepted makes its own step, from its
start or from where it stands. -/

namespace Sys2Proof.Machine
open Sys2Proof.Claims

/-! ## Runs of one instruction -/

theorem execSteps_of_next {i : Instr} {n : Nat} {s t : State} (h : exec i s = .next t) :
    execSteps i (n + 1) s = execSteps i n t := by
  simp only [execSteps, h]

theorem running_accepted {r : Option TurnAway} {i : Instr} {s : State} {own : State → Out} (hcur : s.cur = none)
    (hr : r = none) : running r i s own = own (launch i s) := by
  simp only [running, hcur, hr]

theorem planeRefusal_eq_none {v : Variant} {r : Role} {s : State} (hinst : isInstance s.cfg v r = true)
    (hdone : s.setupDone = true) (hstrict : s.cfg.variant = .std → s.cfg.stdStrict = false) :
    planeRefusal v r s = none := by
  simp [planeRefusal, setupRefusal_eq_none hinst hstrict, hdone]

theorem planeRefusal_pro {r : Role} {s : State} (hinst : isInstance s.cfg .pro r = true)
    (hdone : s.setupDone = true) : planeRefusal .pro r s = none :=
  planeRefusal_eq_none hinst hdone fun hstd => by simp [variant_of_isInstance hinst] at hstd

/-! ## SETUP.PRO -/

/-- The Setup of a Pro engine (rule R183). -/
def setupPro (role : Role) : Instr :=
  match role with
  | .joystickClient => .setupProJc
  | .throttleClient => .setupProTc

theorem exec_setupPro (role : Role) (s : State) : exec (setupPro role) s =
    running (setupRefusal .pro role s) (setupPro role) s (setupStep .pro false false) := by
  cases role <;> rfl

section
variable {role : Role} {i : Instr} {s : State}

theorem exec_setupPro_rest (hi : i = setupPro role) (hinst : isInstance s.cfg .pro role = true) (hcur : s.cur = none) :
    exec i s = .next { s.started i .idle 0 (.seq 1) [.pinWrite .ctlOut false] with outCtl := false } := by
  have hpro : s.cfg.variant = .pro := variant_of_isInstance hinst
  have hr : setupRefusal .pro role s = none := setupRefusal_eq_none hinst (by simp [hpro])
  rw [hi, exec_setupPro, running_accepted hcur hr]
  rfl

theorem exec_setupPro_on (hi : i = setupPro role) (hcur : s.cur = some i) (hdelay : s.delayLeft = 0) :
    exec i s = setupStep .pro false false s := by
  subst hi
  rw [exec_setupPro, running_on hcur hdelay]

end

/-- Settles O32: the first call is made at the launch, and each of the other five where the one before it has left the
operation. -/
theorem setupProDrivesIdleLevels : Obligations.SetupProDrivesIdleLevels := by
  intro i role s hop hinst hcur
  have hi : i = setupPro role := by
    rcases hop with ⟨rfl, rfl⟩ | ⟨rfl, rfl⟩ <;> rfl
  have hfirst := exec_setupPro_rest hi hinst hcur
  refine ⟨hfirst, ?_⟩
  have hnext : ∀ {n : Nat} {u t : State}, u.cur = some i → u.delayLeft = 0 → setupStep .pro false false u = .next t →
      execSteps i (n + 1) u = execSteps i n t := fun hu hd h =>
    execSteps_of_next ((exec_setupPro_on hi hu hd).trans h)
  rw [execSteps_of_next hfirst, hnext rfl rfl rfl, hnext rfl rfl rfl, hnext rfl rfl rfl, hnext rfl rfl rfl,
    hnext rfl rfl rfl]
  rfl

/-! ## The peeks -/

/-- Settles O34: PEEK.PRO's two reads are its two steps, PEEK.STD's read is its only one. -/
theorem peeksReadTheInputs : Obligations.PeeksReadTheInputs := by
  refine ⟨fun s hcur hinst hdone => ?proStarts, fun s ctl ⟨hcur, hdelay, hsub⟩ => ?proEnds,
    fun s hcur hinst hstrict hdone => ?std⟩
  case proStarts =>
    rw [exec, execPeekPro, running_accepted hcur (planeRefusal_pro hinst hdone), peekProStep, launch_sub, pinRead_eq_called, wireLevel_launch]
    rfl
  case proEnds =>
    rw [exec, execPeekPro, running_on hcur hdelay]
    simp only [peekProStep, hsub, pinRead_eq_called, finish_called, wireLevel_dataIn]
  case std =>
    have hr := planeRefusal_eq_none hinst hdone fun _ => hstrict
    rw [exec, execPeekStd]
    simp only [oneStep, hcur, hr, pinRead_eq_called, finish_called_launch, wireLevel_launch, wireLevel_ctlIn]
    rfl

end Sys2Proof.Machine
end

section
/-! SEND.PRO and POLL.PRO, label by label (O35, O36): the place of a running operation says which label's step it makes
next, and each label's step is an equation. -/

namespace Sys2Proof.Machine
open Sys2Proof.Claims

/-! ## Calls and failures as the statements name them -/

theorem beginAbort_eq_fails (f : FrameFailure) (s : State) : beginAbort f s = .next (fails f s) := rfl

/-- A place at which the step is `WaitPin(CTL_IN, v, DL)` has the six equations of such a wait (rules R162, R163). -/
theorem waitsFor_of_waitStep {v : Bool} {i : Instr} {p : Phase} {onward : State → State} {f : FrameFailure}
    {reached isExpired : State → Out} {s : State}
    (hstep : ∀ pos, s.standsAt i p (.first pos) →
      exec i s = waitStep .ctlIn v s.dl pos .first reached isExpired s)
    (hreached : s.phase = p → ∀ c, reached (s.called c) = .next (onward (s.called c)))
    (hexpired : ∀ c, isExpired (s.called c) = .next (fails f (s.called c))) :
    waitsFor v i p .first onward f s := by
  refine ⟨fun hat hv => ?there, fun hat hv => ?other, fun hat hexp => ?expired, fun hat hexp hbusy => ?spin,
    fun hat hexp hbusy => ?rest, fun hat => ?sleep⟩
  case there =>
    have ⟨_, _, hph, _⟩ := hat
    rw [hstep _ hat, waitStep_read_of_level (p := .ctlIn) hv, hreached hph]
  case other => rw [hstep _ hat, waitStep_read_of_other (p := .ctlIn) hv]
  case expired =>
    rw [hstep _ hat, waitStep_test_of_expired hexp, hexpired]
    rfl
  case spin => rw [hstep _ hat, waitStep_test_of_not_expired hexp, hbusy, if_pos rfl]
  case rest => rw [hstep _ hat, waitStep_test_of_not_expired hexp, hbusy, if_neg Bool.false_ne_true]
  case sleep => rw [hstep _ hat, waitStep_sleep]

/-! ## The end of a cycle -/

section
variable {entry : Sub} {s : State}

theorem proNextCycle_of_lt (h : s.cyc.toNat < 75) : proNextCycle entry s = .next (goto .a (s.cyc + 1) entry s) :=
  if_pos h

theorem proNextCycle_of_last (h : s.cyc.toNat = 75) : proNextCycle entry s = .next (goto .done s.cyc .start s) :=
  if_neg (by omega)

/-- The frame deadline is set at the end of cycle 0, so cycle 1 comes next (rule R185). -/
theorem proFrameDeadline_of_zero (h : s.cyc = 0) : proFrameDeadline entry s =
    .next { s.called (.clockRead s.now) with
      dl := s.now + s.cfg.proFrameTimeout, phase := .a, cyc := 1, sub := entry } := by
  rw [proFrameDeadline, proNextCycle_of_lt (by simp [h]), goto, clockRead_eq_called]
  simp only [State.called, h]
  rfl

end

/-! ## SEND.PRO -/

section
variable {st : JoystickState} {wait : Word} {s : State}

theorem exec_sendPro_rest (hcur : s.cur = none) (hinst : isInstance s.cfg .pro .throttleClient = true)
    (hdone : s.setupDone = true) :
    exec (.sendPro st wait) s = sendProIdle st wait (launch (.sendPro st wait) s) := by
  rw [exec, execSendPro, running_accepted hcur (planeRefusal_pro hinst hdone)]
  rfl

/-- While it runs, SEND.PRO makes the step of its place (rule R181). -/
theorem exec_sendPro_at {p : Phase} {sub : Sub} {out : Out} (hat : s.standsAt (.sendPro st wait) p sub)
    (hstep : s.phase = p → s.sub = sub → sendProStep st wait s = out) : exec (.sendPro st wait) s = out := by
  obtain ⟨hcur, hdelay, hph, hsub⟩ := hat
  rw [exec, execSendPro, running_on hcur hdelay, hstep hph hsub]

theorem sendProStep_a (hph : s.phase = .a) (hsub : s.sub = .start) : sendProStep st wait s = sendProA s := by
  simp only [sendProStep, orAbort, hph, hsub]

theorem sendProStep_b (hph : s.phase = .b) (hsub : s.sub = .start) : sendProStep st wait s = sendProB s := by
  simp only [sendProStep, orAbort, hph, hsub]

theorem sendProStep_c {pos : WaitPos} (hph : s.phase = .c) (hsub : s.sub = .first pos) :
    sendProStep st wait s = sendProC pos s := by
  simp only [sendProStep, orAbort, hph, hsub]

theorem sendProStep_d (hph : s.phase = .d) (hsub : s.sub = .start) : sendProStep st wait s = sendProD s := by
  simp only [sendProStep, orAbort, hph, hsub]

theorem sendProStep_e (hph : s.phase = .e) (hsub : s.sub = .start) : sendProStep st wait s = sendProE s := by
  simp only [sendProStep, orAbort, hph, hsub]

theorem sendProStep_f {pos : WaitPos} (hph : s.phase = .f) (hsub : s.sub = .first pos) :
    sendProStep st wait s = sendProF pos s := by
  simp only [sendProStep, orAbort, hph, hsub]

theorem sendProStep_deadline (hph : s.phase = .f) (hsub : s.sub = .deadline) :
    sendProStep st wait s = proFrameDeadline .start s := by
  simp only [sendProStep, orAbort, hph, hsub]

theorem sendProStep_done (hph : s.phase = .done) (hsub : s.sub = .start) :
    sendProStep st wait s = sendProDone s := by
  simp only [sendProStep, orAbort, hph, hsub]

/-! The steps of the labels that have cases. -/

theorem sendProA_of_bit (htx : s.txbuf.N = 56) (hcyc : s.cyc.toNat ≤ 55) : sendProA s =
    .next (goto .b s.cyc .start (pinWrite .dataOut (rawBit s.txbuf s.cyc.toNat) s)) := by
  rw [sendProA, if_pos hcyc, getBit_inRange (by omega), orRangeFault_ok, Int.toNat_natCast]

theorem sendProA_of_tail (hcyc : 56 ≤ s.cyc.toNat) :
    sendProA s = .next (goto .b s.cyc .start (pinWrite .dataOut false s)) :=
  if_neg (by omega)

/-- The level that label A drives in each cycle (rules R181, R187). -/
def sendLevel (tx : BitBuffer) (k : Nat) : Bool := if k ≤ 55 then rawBit tx k else false

theorem sendProA_eq (htx : s.txbuf.N = 56) : sendProA s =
    .next (goto .b s.cyc .start (pinWrite .dataOut (sendLevel s.txbuf s.cyc.toNat) s)) := by
  by_cases hcyc : s.cyc.toNat ≤ 55
  · rw [sendLevel, if_pos hcyc, sendProA_of_bit htx hcyc]
  · rw [sendLevel, if_neg hcyc, sendProA_of_tail (by omega)]

/-- What follows the wait of label F: the frame deadline in cycle 0, else the end of the cycle (rules R181, R185). -/
def sendProDropped (s : State) : Out :=
  if s.cyc = 0 then .next (goto .f s.cyc .deadline s) else proNextCycle .start s

theorem sendProF_eq (pos : WaitPos) : sendProF pos s =
    waitStep .ctlIn false s.dl pos .first sendProDropped (beginAbort .peerUnresponsive) s := rfl

theorem sendProDropped_of_zero (h : s.cyc = 0) : sendProDropped s = .next (goto .f s.cyc .deadline s) := if_pos h

theorem sendProDropped_of_lt (hlo : 1 ≤ s.cyc.toNat) (hhi : s.cyc.toNat < 75) :
    sendProDropped s = .next (goto .a (s.cyc + 1) .start s) := by
  rw [sendProDropped, if_neg (by bv_omega), proNextCycle_of_lt hhi]

theorem sendProDropped_of_last (h : s.cyc.toNat = 75) : sendProDropped s = .next (goto .done s.cyc .start s) := by
  rw [sendProDropped, if_neg (by bv_omega), proNextCycle_of_last h]

/-- A sample that is no desync (rules R186, R187). -/
abbrev sampleInSync (s : State) : Prop :=
  ¬(1 ≤ s.cyc.toNat ∧ s.cyc.toNat ≤ 55 ∧ s.cfg.proStrict = true ∧ s.wDataIn = false) ∧
    ¬(s.cyc.toNat = 56 ∧ s.wDataIn = true)

theorem sendProD_of_desync (h : ¬sampleInSync s) : sendProD s = beginAbort .desync (pinRead .dataIn s) := by
  rw [sendProD]
  split
  · rfl
  split
  · rfl
  case isFalse.isFalse h1 h2 => exact absurd ⟨h1, h2⟩ h

theorem sendProD_of_skip (h : sampleInSync s) (hcyc : s.cyc.toNat ≤ 56) :
    sendProD s = .next (goto .e s.cyc .start (pinRead .dataIn s)) := by
  rw [sendProD, if_neg h.1, if_neg h.2, if_neg (by omega)]

theorem sendProD_of_keep (hrx : s.rxbuf.N = 19) (hlo : 57 ≤ s.cyc.toNat) (hhi : s.cyc.toNat ≤ 75) : sendProD s =
    .next (goto .e s.cyc .start
      { pinRead .dataIn s with rxbuf := rawPutBit s.rxbuf (s.cyc.toNat - 57) s.wDataIn }) := by
  have hindex : ((s.cyc.toNat : Int) - 57).toNat = s.cyc.toNat - 57 := by omega
  rw [sendProD, if_neg (by omega), if_neg (by omega), if_pos hlo, setBit_inRange _ (by omega), orRangeFault_ok, hindex]

theorem sendProDone_eq (hrx : s.rxbuf.N = 19) : sendProDone s =
    .next (finishFrame (.proConfig (proConfigOf s.cfg s.rxbuf)) (setOk true (pinWrite .dataOut false s))) := by
  rw [sendProDone, decProCfg_eq hrx.ge, orRangeFault_ok]

end

/-- Settles O35: at each label the operation's step is that label's equation; a wait is the shared `WaitPin`. -/
theorem sendProFollowsItsLabels : Obligations.SendProFollowsItsLabels := by
  rintro st wait s i rfl
  have hwaitF : ∀ pos, s.standsAt (.sendPro st wait) .f (.first pos) → exec (.sendPro st wait) s =
      waitStep .ctlIn false s.dl pos .first sendProDropped (beginAbort .peerUnresponsive) s := fun pos hat =>
    exec_sendPro_at hat fun hph hsub => (sendProStep_f hph hsub).trans (sendProF_eq pos)
  refine ⟨fun hcur hinst hdone => ?launch, fun hat htx hcyc => ?bit, fun hat hcyc => ?tail, fun hat => ?clockUp,
    waitsFor_of_waitStep (fun pos hat => exec_sendPro_at hat sendProStep_c) (fun _ c => rfl) (fun c => rfl),
    fun hat hcyc hstrict hlow => ?attention, fun hat hcyc hhigh => ?marker, fun hat hcyc => ?skip,
    fun hat hrx hlo hhi => ?keep, fun hat => ?clockDown,
    fun hzero => waitsFor_of_waitStep hwaitF (fun hph c => ?dropZero) (fun c => rfl),
    fun hlo hhi => waitsFor_of_waitStep hwaitF (fun _ c => sendProDropped_of_lt hlo hhi) (fun c => rfl),
    fun hlast => waitsFor_of_waitStep hwaitF (fun _ c => sendProDropped_of_last hlast) (fun c => rfl),
    fun hat hzero => ?deadline, fun hat hrx => ?done⟩
  case launch =>
    rw [exec_sendPro_rest hcur hinst hdone]
    rfl
  case bit =>
    refine exec_sendPro_at hat fun hph hsub => ?_
    rw [sendProStep_a hph hsub, sendProA_of_bit htx hcyc, ← hsub]
    rfl
  case tail =>
    refine exec_sendPro_at hat fun hph hsub => ?_
    rw [sendProStep_a hph hsub, sendProA_of_tail hcyc, ← hsub]
    rfl
  case clockUp =>
    refine exec_sendPro_at hat fun hph hsub => ?_
    rw [sendProStep_b hph hsub]
    rfl
  case attention =>
    refine exec_sendPro_at hat fun hph hsub => ?_
    rw [sendProStep_d hph hsub, sendProD_of_desync (by grind), pinRead_eq_called, wireLevel_dataIn, hlow,
      beginAbort_eq_fails]
  case marker =>
    refine exec_sendPro_at hat fun hph hsub => ?_
    rw [sendProStep_d hph hsub, sendProD_of_desync (by grind), pinRead_eq_called, wireLevel_dataIn, hhigh,
      beginAbort_eq_fails]
  case skip =>
    refine exec_sendPro_at hat fun hph hsub => ?_
    rw [sendProStep_d hph hsub, sendProD_of_skip (by grind) (by omega), ← hsub]
    rfl
  case keep =>
    refine exec_sendPro_at hat fun hph hsub => ?_
    rw [sendProStep_d hph hsub, sendProD_of_keep hrx hlo hhi, ← hsub]
    rfl
  case clockDown =>
    refine exec_sendPro_at hat fun hph hsub => ?_
    rw [sendProStep_e hph hsub]
    rfl
  case dropZero =>
    rw [sendProDropped_of_zero (s := s.called c) hzero, ← hph]
    rfl
  case deadline =>
    refine exec_sendPro_at hat fun hph hsub => ?_
    rw [sendProStep_deadline hph hsub, proFrameDeadline_of_zero hzero]
  case done =>
    refine exec_sendPro_at hat fun hph hsub => ?_
    rw [sendProStep_done hph hsub, sendProDone_eq hrx]
    rfl

/-! ## POLL.PRO -/

section
variable {r : ProConfig} {wait : Word} {s : State}

theorem exec_pollPro_rest (hcur : s.cur = none) (hinst : isInstance s.cfg .pro .joystickClient = true)
    (hdone : s.setupDone = true) :
    exec (.pollPro r wait) s = pollProIdle r wait (launch (.pollPro r wait) s) := by
  rw [exec, execPollPro, running_accepted hcur (planeRefusal_pro hinst hdone)]
  rfl

/-- While it runs, POLL.PRO makes the step of its place (rule R182). -/
theorem exec_pollPro_at {p : Phase} {sub : Sub} {out : Out} (hat : s.standsAt (.pollPro r wait) p sub)
    (hstep : s.phase = p → s.sub = sub → pollProStep r wait s = out) : exec (.pollPro r wait) s = out := by
  obtain ⟨hcur, hdelay, hph, hsub⟩ := hat
  rw [exec, execPollPro, running_on hcur hdelay, hstep hph hsub]

theorem pollProStep_a {pos : WaitPos} (hph : s.phase = .a) (hsub : s.sub = .first pos) :
    pollProStep r wait s = pollProA pos s := by
  simp only [pollProStep, orAbort, hph, hsub]

theorem pollProStep_b (hph : s.phase = .b) (hsub : s.sub = .start) : pollProStep r wait s = pollProB s := by
  simp only [pollProStep, orAbort, hph, hsub]

theorem pollProStep_c (hph : s.phase = .c) (hsub : s.sub = .start) : pollProStep r wait s = pollProC s := by
  simp only [pollProStep, orAbort, hph, hsub]

theorem pollProStep_d (hph : s.phase = .d) (hsub : s.sub = .start) : pollProStep r wait s = pollProD s := by
  simp only [pollProStep, orAbort, hph, hsub]

theorem pollProStep_e {pos : WaitPos} (hph : s.phase = .e) (hsub : s.sub = .first pos) :
    pollProStep r wait s = pollProE pos s := by
  simp only [pollProStep, orAbort, hph, hsub]

theorem pollProStep_f (hph : s.phase = .f) (hsub : s.sub = .start) : pollProStep r wait s = pollProF s := by
  simp only [pollProStep, orAbort, hph, hsub]

theorem pollProStep_deadline (hph : s.phase = .f) (hsub : s.sub = .deadline) :
    pollProStep r wait s = proFrameDeadline (.first .read) s := by
  simp only [pollProStep, orAbort, hph, hsub]

theorem pollProStep_done (hph : s.phase = .done) (hsub : s.sub = .start) :
    pollProStep r wait s = pollProDone s := by
  simp only [pollProStep, orAbort, hph, hsub]

/-! The steps of the labels that have cases. -/

theorem pollProB_of_keep (hrx : s.rxbuf.N = 56) (hcyc : s.cyc.toNat ≤ 55) : pollProB s =
    .next (goto .c s.cyc .start { pinRead .dataIn s with rxbuf := rawPutBit s.rxbuf s.cyc.toNat s.wDataIn }) := by
  rw [pollProB, if_pos hcyc, setBit_inRange _ (by omega), orRangeFault_ok, Int.toNat_natCast]

theorem pollProB_of_skip (hcyc : 56 ≤ s.cyc.toNat) :
    pollProB s = .next (goto .c s.cyc .start (pinRead .dataIn s)) :=
  if_neg (by omega)

theorem pollProC_of_bit (htx : s.txbuf.N = 19) (hlo : 57 ≤ s.cyc.toNat) (hhi : s.cyc.toNat ≤ 75) : pollProC s =
    .next (goto .d s.cyc .start (pinWrite .dataOut (rawBit s.txbuf (s.cyc.toNat - 57)) s)) := by
  have hindex : ((s.cyc.toNat : Int) - 57).toNat = s.cyc.toNat - 57 := by omega
  rw [pollProC, if_pos hlo, getBit_inRange (by omega), orRangeFault_ok, hindex]

/-- Before the config bits the level is the attention level or a 0 (rule R89). -/
theorem pollProC_of_head (hcyc : s.cyc.toNat ≤ 56) : pollProC s =
    .next (goto .d s.cyc .start (pinWrite .dataOut (decide (1 ≤ s.cyc.toNat ∧ s.cyc.toNat ≤ 55)) s)) :=
  if_neg (by omega)

/-- The level that label C drives in each cycle: 0, the attention level, the marker 0, then the config bits (rules R89,
R182). -/
def pollLevel (tx : BitBuffer) (k : Nat) : Bool := if 57 ≤ k then rawBit tx (k - 57) else decide (1 ≤ k ∧ k ≤ 55)

theorem pollProC_eq (htx : s.txbuf.N = 19) (hcyc : s.cyc.toNat ≤ 75) : pollProC s =
    .next (goto .d s.cyc .start (pinWrite .dataOut (pollLevel s.txbuf s.cyc.toNat) s)) := by
  by_cases hlo : 57 ≤ s.cyc.toNat
  · rw [pollLevel, if_pos hlo, pollProC_of_bit htx hlo hcyc]
  · rw [pollLevel, if_neg hlo, pollProC_of_head (by omega)]

theorem pollProF_of_zero (h : s.cyc = 0) :
    pollProF s = .next (goto .f s.cyc .deadline (pinWrite .ctlOut false s)) := if_pos h

theorem pollProF_of_lt (hlo : 1 ≤ s.cyc.toNat) (hhi : s.cyc.toNat < 75) :
    pollProF s = .next (goto .a (s.cyc + 1) (.first .read) (pinWrite .ctlOut false s)) := by
  rw [pollProF, if_neg (by bv_omega)]
  exact proNextCycle_of_lt hhi

theorem pollProF_of_last (h : s.cyc.toNat = 75) :
    pollProF s = .next (goto .done s.cyc .start (pinWrite .ctlOut false s)) := by
  rw [pollProF, if_neg (by bv_omega)]
  exact proNextCycle_of_last h

theorem pollProDone_eq (hrx : s.rxbuf.N = 56) : pollProDone s =
    .next (finishFrame (.state (proStateOf s.cfg s.rxbuf)) (setOk true (pinWrite .dataOut false s))) := by
  rw [pollProDone, decProState_eq hrx.ge, orRangeFault_ok]

end

/-- Settles O36: at each label the operation's step is that label's equation; a wait is the shared `WaitPin`. -/
theorem pollProFollowsItsLabels : Obligations.PollProFollowsItsLabels := by
  rintro r wait s i rfl
  refine ⟨fun hcur hinst hdone => ?launch,
    waitsFor_of_waitStep (fun pos hat => exec_pollPro_at hat pollProStep_a) (fun _ c => rfl) (fun c => rfl),
    fun hat hrx hcyc => ?keep, fun hat hcyc => ?skip, fun hat hcyc => ?low, fun hat hlo hhi => ?attention,
    fun hat htx hlo hhi => ?bit, fun hat => ?clockUp,
    waitsFor_of_waitStep (fun pos hat => exec_pollPro_at hat pollProStep_e) (fun _ c => rfl) (fun c => rfl),
    fun hat hzero => ?clockDownZero, fun hat hlo hhi => ?clockDown, fun hat hlast => ?clockDownLast,
    fun hat hzero => ?deadline, fun hat hrx => ?done⟩
  case launch =>
    rw [exec_pollPro_rest hcur hinst hdone]
    rfl
  case keep =>
    refine exec_pollPro_at hat fun hph hsub => ?_
    rw [pollProStep_b hph hsub, pollProB_of_keep hrx hcyc, ← hsub]
    rfl
  case skip =>
    refine exec_pollPro_at hat fun hph hsub => ?_
    rw [pollProStep_b hph hsub, pollProB_of_skip hcyc, ← hsub]
    rfl
  case low =>
    refine exec_pollPro_at hat fun hph hsub => ?_
    have hlevel : decide (1 ≤ s.cyc.toNat ∧ s.cyc.toNat ≤ 55) = false := decide_eq_false (by omega)
    rw [pollProStep_c hph hsub, pollProC_of_head (by omega), hlevel, ← hsub]
    rfl
  case attention =>
    refine exec_pollPro_at hat fun hph hsub => ?_
    rw [pollProStep_c hph hsub, pollProC_of_head (by omega), decide_eq_true ⟨hlo, hhi⟩, ← hsub]
    rfl
  case bit =>
    refine exec_pollPro_at hat fun hph hsub => ?_
    rw [pollProStep_c hph hsub, pollProC_of_bit htx hlo hhi, ← hsub]
    rfl
  case clockUp =>
    refine exec_pollPro_at hat fun hph hsub => ?_
    rw [pollProStep_d hph hsub]
    rfl
  case clockDownZero =>
    refine exec_pollPro_at hat fun hph hsub => ?_
    rw [pollProStep_f hph hsub, pollProF_of_zero hzero, ← hph]
    rfl
  case clockDown =>
    refine exec_pollPro_at hat fun hph hsub => ?_
    rw [pollProStep_f hph hsub, pollProF_of_lt hlo hhi]
    rfl
  case clockDownLast =>
    refine exec_pollPro_at hat fun hph hsub => ?_
    rw [pollProStep_f hph hsub, pollProF_of_last hlast, ← hsub]
    rfl
  case deadline =>
    refine exec_pollPro_at hat fun hph hsub => ?_
    rw [pollProStep_deadline hph hsub, proFrameDeadline_of_zero hzero]
  case done =>
    refine exec_pollPro_at hat fun hph hsub => ?_
    rw [pollProStep_done hph hsub, pollProDone_eq hrx]
    rfl

end Sys2Proof.Machine
end

section
/-! The two deadlines of a Pro frame (O37): past its launch no label but the end of cycle 0 writes `DL`. -/

namespace Sys2Proof.Machine
open Sys2Proof.Claims

theorem proNextCycle_dl {entry : Sub} {s t : State} (h : proNextCycle entry s = .next t) : t.dl = s.dl := by
  unfold proNextCycle at h
  split at h <;> cases h <;> rfl

theorem waitStep_dl {p : InPin} {v : Bool} {dl : Word} {pos : WaitPos} {place : WaitPos → Sub}
    {reached isExpired : State → Out} {s t : State} (h : waitStep p v dl pos place reached isExpired s = .next t)
    (hreached : ∀ u, reached u = .next t → t.dl = u.dl) (hexpired : ∀ u, isExpired u = .next t → t.dl = u.dl) :
    t.dl = s.dl :=
  waitStep_elim (G := fun t => t.dl = s.dl) h (fun _ h => (hreached _ h :)) (fun _ _ h => (hexpired _ h :))
    fun _ _ _ _ => rfl

theorem beginAbort_dl {f : FrameFailure} {s t : State} (h : beginAbort f s = .next t) : t.dl = s.dl := by
  cases h
  rfl

/-- The step is the clock read at the end of a cycle 0 (rule R185). -/
def readsFrameDeadline (entry : Sub) (s t : State) : Prop :=
  s.phase = .f ∧ s.sub = .deadline ∧ proFrameDeadline entry s = .next t

theorem orAbort_dl {P : Prop} {s t : State} {own : State → Out} (h : orAbort s own = .next t)
    (hown : own s = .next t → t.dl = s.dl ∨ P) : t.dl = s.dl ∨ P := by
  rcases orAbort_next h with ⟨code, -, rfl⟩ | ⟨code, -, rfl⟩ | ⟨-, -, h⟩
  · exact .inl rfl
  · exact .inl rfl
  · exact hown h

theorem sendProStep_dl {st : JoystickState} {wait : Word} {s t : State} (hp : sendProPlace s = true)
    (h : sendProStep st wait s = .next t) : t.dl = s.dl ∨ readsFrameDeadline .start s t := by
  refine orAbort_dl h fun h => ?_
  split at h
  case h_1 hph hsub => simp [sendProPlace, hph] at hp
  case h_2 => -- A
    unfold sendProA at h
    split at h
    · obtain ⟨v, -, h⟩ := orRangeFault_next h
      cases h
      exact .inl rfl
    · cases h
      exact .inl rfl
  case h_3 | h_6 => -- B, E
    cases h
    exact .inl rfl
  case h_4 => -- C
    refine .inl (waitStep_dl h (fun u h => ?_) fun u => beginAbort_dl)
    cases h
    rfl
  case h_5 => -- D
    unfold sendProD at h
    split at h
    · exact .inl (beginAbort_dl h :)
    split at h
    · exact .inl (beginAbort_dl h :)
    split at h
    · obtain ⟨b, -, h⟩ := orRangeFault_next h
      cases h
      exact .inl rfl
    · cases h
      exact .inl rfl
  case h_7 => -- F, the wait
    refine .inl (waitStep_dl h (fun u h => ?_) fun u => beginAbort_dl)
    rcases ite_eq_iff.mp h with ⟨-, h⟩ | ⟨-, h⟩
    · cases h
      rfl
    · exact proNextCycle_dl h
  case h_8 hph hsub => exact .inr ⟨hph, hsub, h⟩
  case h_9 => -- DONE
    obtain ⟨r, -, h⟩ := orRangeFault_next h
    cases h
    exact .inl rfl
  case h_10 => cases h

theorem pollProStep_dl {r : ProConfig} {wait : Word} {s t : State} (hp : pollProPlace s = true)
    (h : pollProStep r wait s = .next t) : t.dl = s.dl ∨ readsFrameDeadline (.first .read) s t := by
  refine orAbort_dl h fun h => ?_
  split at h
  case h_1 hph hsub => simp [pollProPlace, hph] at hp
  case h_2 | h_6 => -- A, E
    refine .inl (waitStep_dl h (fun u h => ?_) fun u => beginAbort_dl)
    cases h
    rfl
  case h_3 => -- B
    unfold pollProB at h
    split at h
    · obtain ⟨b, -, h⟩ := orRangeFault_next h
      cases h
      exact .inl rfl
    · cases h
      exact .inl rfl
  case h_4 => -- C
    unfold pollProC at h
    split at h
    · obtain ⟨v, -, h⟩ := orRangeFault_next h
      cases h
      exact .inl rfl
    · cases h
      exact .inl rfl
  case h_5 => -- D
    cases h
    exact .inl rfl
  case h_7 => -- F
    unfold pollProF at h
    split at h
    · cases h
      exact .inl rfl
    · exact .inl (proNextCycle_dl h :)
  case h_8 hph hsub => exact .inr ⟨hph, hsub, h⟩
  case h_9 => -- DONE
    obtain ⟨r, -, h⟩ := orRangeFault_next h
    cases h
    exact .inl rfl
  case h_10 => cases h

theorem cyc_eq_zero_of_sendProDeadline {s : State} (hp : sendProPlace s = true) (hph : s.phase = .f)
    (hsub : s.sub = .deadline) : s.cyc = 0 := by
  simp only [sendProPlace, hph, hsub, Bool.and_eq_true, decide_eq_true_eq] at hp
  exact hp.2

theorem cyc_eq_zero_of_pollProDeadline {s : State} (hp : pollProPlace s = true) (hph : s.phase = .f)
    (hsub : s.sub = .deadline) : s.cyc = 0 := by
  simp only [pollProPlace, hph, hsub, Bool.and_eq_true, decide_eq_true_eq] at hp
  exact hp.2

/-- The clock read of cycle 0 sets the frame deadline and goes on with cycle 1. -/
theorem frameDeadline_read {entry : Sub} {s t : State} (h : readsFrameDeadline entry s t) (hzero : s.cyc = 0) :
    s.sub = .deadline ∧ s.phase = .f ∧ s.cyc = 0 ∧ t.phase = .a ∧ t.cyc = 1 ∧
      t.dl = s.now + s.cfg.proFrameTimeout := by
  obtain ⟨hph, hsub, h⟩ := h
  rw [proFrameDeadline_of_zero hzero] at h
  cases h
  exact ⟨hsub, hph, hzero, rfl, rfl, rfl⟩

/-- A running frame makes the step of its place, or none while a `delay_us` is in progress. -/
theorem running_step {r : Option TurnAway} {i : Instr} {s t : State} {own : State → Out} (hcur : s.cur = some i)
    (h : running r i s own = .next t) : t = s ∨ own s = .next t := by
  by_cases hd : s.delayLeft = 0
  · rw [running_on hcur hd] at h
    exact .inr h
  · rw [running_held hcur (Nat.pos_of_ne_zero hd)] at h
    cases h
    exact .inl rfl

/-- Settles O37: the one step that writes `DL` is the frame deadline's, and its place is in cycle 0. -/
theorem proDeadlineReplacedOnce : Obligations.ProDeadlineReplacedOnce := by
  intro i s t hi hs hcur h hne
  obtain ⟨-, -, hp, -, -⟩ := (State.inv_iff s).mp hs
  rcases hi with ⟨st, wait, rfl⟩ | ⟨r, wait, rfl⟩
  · obtain ⟨-, -, hp⟩ := (placeOk_frame rfl hcur).mp hp
    rcases running_step hcur h with rfl | h
    · exact absurd rfl hne
    · have hread := (sendProStep_dl hp h).resolve_left hne
      have ⟨hph, hsub, _⟩ := hread
      exact frameDeadline_read hread (cyc_eq_zero_of_sendProDeadline hp hph hsub)
  · obtain ⟨-, -, hp⟩ := (placeOk_frame rfl hcur).mp hp
    rcases running_step hcur h with rfl | h
    · exact absurd rfl hne
    · have hread := (pollProStep_dl hp h).resolve_left hne
      have ⟨hph, hsub, _⟩ := hread
      exact frameDeadline_read hread (cyc_eq_zero_of_pollProDeadline hp hph hsub)

end Sys2Proof.Machine
end

section
/-! HOST's operands while an operation runs (O54): no meaning reads them, so each one makes the same of a state with
other operand values, which then stay. -/

namespace Sys2Proof.Machine
open Sys2Proof.Claims

/-! ## Meanings that do not read the operand values -/

/-- The outcome with these operand values in its next state. -/
def withArgs (a : Args) (o : Out) : Out :=
  match o with
  | .next t => .next (hostSets a t)
  | .fault f => .fault f
  | .refused r => .refused r

@[simp] theorem withArgs_next (a : Args) (t : State) : withArgs a (.next t) = .next (hostSets a t) := rfl

/-- A piece of a meaning that neither reads nor writes the operand values. -/
def BlindToArgs (k : State → Out) : Prop := ∀ a s, k (hostSets a s) = withArgs a (k s)

section
variable {a : Args} {s : State}

theorem ite_withArgs {c : Prop} [Decidable c] {x x' y y' : Out} (hx : x' = withArgs a x) (hy : y' = withArgs a y) :
    (if c then x' else y') = withArgs a (if c then x else y) := by
  subst hx hy
  exact (apply_ite (withArgs a) c x y).symm

theorem orRangeFault_withArgs {α : Type} {r : Except RangeInfo α} {k k' : α → Out}
    (h : ∀ v, k' v = withArgs a (k v)) : orRangeFault r k' = withArgs a (orRangeFault r k) := by
  cases r with
  | error e => rfl
  | ok v => exact h v

theorem orAbort_blind {own : State → Out} (h : BlindToArgs own) : BlindToArgs fun s => orAbort s own := by
  intro a s
  dsimp only [orAbort]
  rw [hostSets_sub]
  split
  · rfl
  · rfl
  · exact h a s

theorem waitStep_withArgs {p : InPin} {v : Bool} {dl : Word} {pos : WaitPos} {place : WaitPos → Sub}
    {reached isExpired : State → Out} (hr : BlindToArgs reached) (he : BlindToArgs isExpired) :
    waitStep p v dl pos place reached isExpired (hostSets a s) =
      withArgs a (waitStep p v dl pos place reached isExpired s) := by
  have hlevel : wireLevel p (hostSets a s) = wireLevel p s := by cases p <;> rfl
  have hread : pinRead p (hostSets a s) = hostSets a (pinRead p s) := by cases p <;> rfl
  cases pos with
  | read =>
    simp only [waitStep, hlevel, hread]
    exact ite_withArgs (hr _ _) rfl
  | test => exact ite_withArgs (he a (clockRead s)) rfl
  | sleep => rfl

theorem countStep_withArgs {dl : Word} {pos : CountPos} {result : PulseResult → State → Out}
    (h : ∀ r, BlindToArgs (result r)) :
    countStep dl pos result (hostSets a s) = withArgs a (countStep dl pos result s) := by
  cases pos with
  | count => exact ite_withArgs rfl (ite_withArgs (h .finished a (counterRead s)) (h .tooMany a (counterRead s)))
  | test => exact ite_withArgs rfl rfl
  | pin => exact h (timeoutResult s.wCtlIn) a (pinRead .ctlIn s)
  | sleep => rfl

theorem pulseStep_withArgs {w : Waiter} {dl : Word} {tr : Trigger} {done : PulseResult → State → Out}
    (h : ∀ r, BlindToArgs (done r)) :
    pulseStep w dl tr done (hostSets a s) = withArgs a (pulseStep w dl tr done s) := by
  have hres : ∀ r, BlindToArgs fun s => done r (setPulse r s) := fun r a s => h r a (setPulse r s)
  unfold pulseStep
  rw [hostSets_sub]
  dsimp only
  split
  · rfl
  · cases tr <;> rfl
  · exact waitStep_withArgs (fun _ _ => rfl) (hres _)
  · exact waitStep_withArgs (hres _) (hres _)
  · exact countStep_withArgs hres
  · rfl

end

/-! ## The Pro engine -/

theorem proNextCycle_blind (entry : Sub) : BlindToArgs (proNextCycle entry) := fun _ _ => ite_withArgs rfl rfl

theorem proFrameDeadline_blind (entry : Sub) : BlindToArgs (proFrameDeadline entry) := fun _ _ => ite_withArgs rfl rfl

theorem sendProStep_blind (st : JoystickState) (wait : Word) : BlindToArgs (sendProStep st wait) := by
  refine orAbort_blind fun a s => ?_
  rw [hostSets_phase, hostSets_sub]
  split
  · rfl
  · exact ite_withArgs (orRangeFault_withArgs fun v => rfl) rfl
  · rfl
  · exact waitStep_withArgs (fun _ _ => rfl) (fun _ _ => rfl)
  · exact ite_withArgs rfl (ite_withArgs rfl (ite_withArgs (orRangeFault_withArgs fun b => rfl) rfl))
  · rfl
  · exact waitStep_withArgs (fun a s => ite_withArgs rfl (proNextCycle_blind _ a s)) (fun _ _ => rfl)
  · exact proFrameDeadline_blind _ a s
  · exact orRangeFault_withArgs fun r => rfl
  · rfl

theorem pollProStep_blind (r : ProConfig) (wait : Word) : BlindToArgs (pollProStep r wait) := by
  refine orAbort_blind fun a s => ?_
  rw [hostSets_phase, hostSets_sub]
  split
  · rfl
  · exact waitStep_withArgs (fun _ _ => rfl) (fun _ _ => rfl)
  · exact ite_withArgs (orRangeFault_withArgs fun b => rfl) rfl
  · exact ite_withArgs (orRangeFault_withArgs fun v => rfl) rfl
  · rfl
  · exact waitStep_withArgs (fun _ _ => rfl) (fun _ _ => rfl)
  · exact ite_withArgs rfl (proNextCycle_blind _ a (pinWrite .ctlOut false s))
  · exact proFrameDeadline_blind _ a s
  · exact orRangeFault_withArgs fun r => rfl
  · rfl

theorem peekProStep_blind : BlindToArgs peekProStep := by
  intro a s
  unfold peekProStep
  rw [hostSets_sub]
  split <;> rfl

/-! ## The Std engine -/

theorem pollStdP2Done_blind (p : PulseResult) : BlindToArgs (pollStdP2Done p) := fun _ _ => by cases p <;> rfl

theorem pollStdP3Done_blind (p : PulseResult) : BlindToArgs (pollStdP3Done p) := by
  intro a s
  cases p with
  | finished => exact ite_withArgs rfl rfl
  | started | notStarted | tooMany => rfl

theorem pollStdP4Done_blind (p : PulseResult) : BlindToArgs (pollStdP4Done p) := fun _ _ => by cases p <;> rfl

theorem pollStdP6_blind (n : Nat) : BlindToArgs (pollStdP6 n) := by
  intro a s
  unfold pollStdP6
  split
  · rfl
  · exact orRangeFault_withArgs fun v => rfl
  · rfl
  · rfl
  · exact ite_withArgs rfl rfl
  · rfl

theorem pollStdP7_blind (n : Nat) : BlindToArgs (pollStdP7 n) := by
  intro a s
  unfold pollStdP7
  split
  · rfl
  · refine orRangeFault_withArgs fun r => ?_
    cases r <;> rfl
  · rfl

theorem pollStdStep_blind (r : StdConfig) (wait : Word) : BlindToArgs (pollStdStep r wait) := by
  have hsample : BlindToArgs pollStdSample := fun a s => orRangeFault_withArgs fun b => rfl
  refine orAbort_blind fun a s => ?_
  rw [hostSets_phase, hostSets_sub]
  split
  · rfl
  · exact waitStep_withArgs (fun _ _ => rfl) (fun _ _ => rfl)
  · rfl
  · exact pulseStep_withArgs pollStdP2Done_blind
  · exact hsample a s
  · exact pulseStep_withArgs pollStdP3Done_blind
  · exact hsample a s
  · exact pulseStep_withArgs pollStdP4Done_blind
  · exact waitStep_withArgs (fun _ _ => rfl) (fun _ _ => rfl)
  · exact pollStdP6_blind _ a s
  · exact pollStdP6_blind _ a s
  · exact pollStdP7_blind _ a s
  · exact pollStdP7_blind _ a s
  · rfl

theorem pulseOut_blind {after : State → Out} (h : BlindToArgs after) (n : Word) (place : Nat) :
    BlindToArgs (pulseOut n place after) := by
  intro a s
  unfold pulseOut
  split
  · rfl
  · rfl
  · exact h a (pinWrite .ctlOut true s)
  · rfl

theorem sendStdNextBit_blind : BlindToArgs sendStdNextBit := fun _ _ => ite_withArgs rfl rfl

theorem sendStdS5_blind (sub : Sub) : BlindToArgs (sendStdS5 sub) := by
  intro a s
  unfold sendStdS5
  split
  · exact waitStep_withArgs (fun _ _ => rfl) (fun _ _ => rfl)
  · exact waitStep_withArgs (fun _ _ => rfl) (fun _ _ => rfl)
  · exact orRangeFault_withArgs fun b => ite_withArgs rfl rfl
  · rfl

theorem sendStdStep_blind (st : JoystickState) (wait : Word) : BlindToArgs (sendStdStep st wait) := by
  have hbit : BlindToArgs sendStdBit := fun a s => orRangeFault_withArgs fun v => rfl
  have hprompt : ∀ pos, BlindToArgs (sendStdPrompt pos) := fun pos a s =>
    waitStep_withArgs (fun _ _ => rfl) (fun _ _ => rfl)
  refine orAbort_blind fun a s => ?_
  rw [hostSets_phase, hostSets_sub]
  split
  · rfl
  · exact waitStep_withArgs (fun _ _ => rfl) (fun _ _ => rfl)
  · rfl
  · exact hbit a s
  · exact pulseOut_blind sendStdNextBit_blind _ _ a s
  · exact hprompt _ a s
  · exact hbit a s
  · exact pulseOut_blind sendStdNextBit_blind _ _ a s
  · exact hprompt _ a s
  · rfl
  · exact pulseOut_blind (fun _ _ => rfl) _ _ a s
  · exact sendStdS5_blind _ a s
  · exact waitStep_withArgs (fun _ _ => rfl) (fun _ _ => rfl)
  · exact orRangeFault_withArgs fun r => rfl
  · rfl

/-! ## Setup and the waits of HOST's own -/

theorem setupStep_blind (v : Variant) (level irq : Bool) : BlindToArgs (setupStep v level irq) := by
  intro a s
  unfold setupStep
  rw [hostSets_sub]
  split
  case h_6 => exact ite_withArgs rfl rfl
  case h_7 => exact ite_withArgs rfl (ite_withArgs rfl rfl)
  case h_8 => exact ite_withArgs rfl rfl
  all_goals rfl

theorem waitPinStep_blind (p : InPin) (v : Bool) (dl : Word) : BlindToArgs (waitPinStep p v dl) := by
  intro a s
  unfold waitPinStep
  rw [hostSets_sub]
  dsimp only
  split
  · exact waitStep_withArgs (fun _ _ => rfl) (fun _ _ => rfl)
  · exact waitStep_withArgs (fun _ _ => rfl) (fun _ _ => rfl)
  · rfl

theorem waitPulseStep_blind (w : Waiter) (dl : Word) (tr : Trigger) : BlindToArgs (waitPulseStep w dl tr) := by
  intro a s
  unfold waitPulseStep
  rw [hostSets_sub]
  dsimp only
  split
  · exact pulseStep_withArgs (s := { s with sub := pulseEntry w }) fun _ _ _ => rfl
  · exact pulseStep_withArgs fun _ _ _ => rfl

/-! ## Every operation -/

theorem Ending.apply_hostSets (e : Ending) (a : Args) (s : State) : e.apply (hostSets a s) = hostSets a (e.apply s) := by
  cases e with
  | decodedStd r => cases r <;> rfl
  | _ => rfl

theorem oneStep_withArgs {r : Option TurnAway} {i : Instr} {own : State → Out} (h : BlindToArgs own) (a : Args)
    (s : State) : oneStep r i (hostSets a s) own = withArgs a (oneStep r i s own) := by
  unfold oneStep
  rw [hostSets_cur]
  cases s.cur with
  | some j => rfl
  | none =>
    cases r with
    | some w => rfl
    | none => exact h a (launch i s)

theorem running_withArgs {r : Option TurnAway} {i : Instr} {own : State → Out} (h : BlindToArgs own) (a : Args)
    (s : State) : running r i (hostSets a s) own = withArgs a (running r i s own) := by
  unfold running
  rw [hostSets_cur]
  cases s.cur with
  | some j => exact ite_withArgs (ite_withArgs (h a s) rfl) rfl
  | none =>
    cases r with
    | some w => rfl
    | none => exact h a (launch i s)

theorem exec_oneStep_blind {i : Instr} (hi : isOneStep i = true) : BlindToArgs (exec i) := by
  intro a s
  obtain ⟨value, -, heq⟩ := endsInOneStep hi
  rw [heq, heq]
  refine oneStep_withArgs (fun a s => orRangeFault_withArgs fun e => ?_) a s
  rw [e.apply_hostSets, withArgs_next]

/-- No operation reads or writes HOST's operand values: it was given its own at the call (rules R188, R278). -/
theorem exec_blind (i : Instr) : BlindToArgs (exec i) := by
  intro a s
  cases i with
  | pollPro r w => exact running_withArgs (pollProStep_blind r w) a s
  | sendPro st w => exact running_withArgs (sendProStep_blind st w) a s
  | pollStd r w => exact running_withArgs (pollStdStep_blind r w) a s
  | sendStd st w => exact running_withArgs (sendStdStep_blind st w) a s
  | peekPro => exact running_withArgs peekProStep_blind a s
  | peekStd =>
    unfold exec execPeekStd
    exact oneStep_withArgs (fun _ _ => rfl) a s
  | setupProJc => exact running_withArgs (setupStep_blind _ _ _) a s
  | setupProTc => exact running_withArgs (setupStep_blind _ _ _) a s
  | setupStdJc => exact running_withArgs (setupStep_blind _ _ _) a s
  | setupStdTc => exact running_withArgs (setupStep_blind _ _ _) a s
  | waitPin p v dl => exact running_withArgs (r := none) (waitPinStep_blind p v dl) a s
  | waitPulsePoll dl tr => exact running_withArgs (waitPulseStep_blind _ dl tr) a s
  | waitPulseIrq dl tr => exact running_withArgs (waitPulseStep_blind _ dl tr) a s
  | edgeCb =>
    rw [exec_edgeCb, exec_edgeCb]
    exact ite_withArgs rfl rfl
  | _ => exact exec_oneStep_blind rfl a s

/-- Settles O54: what a blind meaning answers is the old next state, with the new operand values. -/
theorem hostRecordsSampledOnce : Obligations.HostRecordsSampledOnce := by
  intro i a s t h
  have hblind := exec_blind i a s
  rw [h] at hblind
  exact hblind

end Sys2Proof.Machine
end

section
/-! A side's part in a Pro frame (O57, O58): a frame of 76 cycles is counted label by label, one position for each, and
each of the two operations goes through the same 456 positions, with its own call at each label. What the loopback
statements need of SEND.PRO and of POLL.PRO is said here once, of both. -/

namespace Sys2Proof.Machine
open Sys2Proof.Claims

/-! ## Positions of a frame -/

/-- The place of a label in its cycle: A to F are 0 to 5; 6 is past F, at the frame deadline of cycle 0 or at DONE. -/
def labelIndex (p : Phase) (sub : Sub) : Nat :=
  match p, sub with
  | .b, _ => 1
  | .c, _ => 2
  | .d, _ => 3
  | .e, _ => 4
  | .f, .deadline => 6
  | .f, _ => 5
  | .done, _ => 6
  | _, _ => 0

/-- How many labels of the frame are behind: 0 at the first, 456 at DONE. -/
def framePos (s : State) : Nat := 6 * s.cyc.toNat + labelIndex s.phase s.sub

/-- Which label of a cycle makes which call: the write of DATA_OUT, the clock's two edges, the waits for the peer's two
edges, and the sample. -/
structure Labels where
  drives : Nat
  rises : Nat
  hears : Nat
  samples : Nat
  falls : Nat
  misses : Nat

/-- A side's part in a Pro frame. -/
structure Part extends Labels where
  /-- Its configuration, HOST's code for the operation, and the operation. -/
  cfg : Config
  code : Byte
  op : Instr
  /-- The frame it sends, and its level of DATA_OUT in each cycle. -/
  tx : BitBuffer
  level : Nat → Bool
  /-- The peer's level of DATA_OUT in each cycle, and which cycles' samples are kept. -/
  heard : Nat → Bool
  first : Nat
  kept : Nat
  /-- The record a received frame stands for. -/
  record : BitBuffer → OutRecord

/-- SEND.PRO's part, against a responder that sends the frame `peer` (rule R181). -/
def sendPart (cfg : Config) (st : JoystickState) (wait : Word) (peer : BitBuffer) : Part :=
  { drives := 0, rises := 1, hears := 2, samples := 3, falls := 4, misses := 5, cfg := cfg, code := 0x53
    op := .sendPro st wait, tx := encProState st, level := sendLevel (encProState st), heard := pollLevel peer
    first := 57, kept := 19, record := fun buf => .proConfig (proConfigOf cfg buf) }

/-- POLL.PRO's part, against an initiator that sends the frame `peer` (rule R182). -/
def pollPart (cfg : Config) (r : ProConfig) (wait : Word) (peer : BitBuffer) : Part :=
  { hears := 0, samples := 1, drives := 2, rises := 3, misses := 4, falls := 5, cfg := cfg, code := 0x52
    op := .pollPro r wait, tx := encProCfg cfg.ledCode r, level := pollLevel (encProCfg cfg.ledCode r)
    heard := sendLevel peer, first := 0, kept := 56, record := fun buf => .state (proStateOf cfg buf) }

namespace Part
variable (p : Part)

/-- The level of the clock line at position `n`. -/
def high (n : Nat) : Bool := decide (p.rises < n % 6 ∧ n % 6 ≤ p.falls)

/-- The place at which a label is entered. -/
def entry (ph : Phase) : Sub :=
  if labelIndex ph .start = p.hears ∨ labelIndex ph .start = p.misses then .first .read else .start

/-- The samples that are kept and behind position `n` are the peer's levels (rule R187). -/
def received (n : Nat) (buf : BitBuffer) : Prop :=
  ∀ k, p.first ≤ k → k < p.first + p.kept → 6 * k + p.samples < n → rawBit buf (k - p.first) = p.heard k

/-- The operation runs at position `n`, and no abort is in progress. -/
structure At (n : Nat) (s : State) : Prop where
  cur : s.cur = some p.op
  goes : (∀ code, s.sub ≠ .abortCtl code) ∧ ∀ code, s.sub ≠ .abortData code
  pos : framePos s = n
  tx : s.txbuf = p.tx
  clock : s.outCtl = p.high n
  data : p.drives < n % 6 → s.outData = p.level (n / 6)
  rx : p.received n s.rxbuf

/-- The label's first call comes next. -/
def Ready (s : State) : Prop := s.delayLeft = 0 ∧ s.sub = p.entry s.phase

/-- The labels are those of one cycle, and the clock rises before it falls. -/
structure Ordered : Prop where
  clock : p.rises < p.falls
  falls : p.falls < 6
  samples : p.samples < 6
  drives : p.drives < 6
  hears : p.hears < 6
  misses : p.misses < 6
  waits : p.hears ≠ p.misses

/-- What of rule R189's counts the call of a label is. -/
def share (l : Nat) : List Nat :=
  [if l = p.drives then 1 else 0, (if l = p.rises then 1 else 0) + (if l = p.falls then 1 else 0),
    (if l = p.hears then 1 else 0) + (if l = p.misses then 1 else 0), if l = p.samples then 1 else 0, 0]

/-- `t` is `s` after the call of the label at position `n`. -/
structure Advances (n : Nat) (s t : State) : Prop where
  at_succ : p.At (n + 1) t
  noDelay : t.delayLeft = 0
  enters : n ≠ 5 ∧ t.sub = p.entry t.phase ∨ n = 5 ∧ t.sub = .deadline
  called : ∃ c, t.calls = c :: s.calls ∧ frameCalls [c] = p.share (n % 6)

end Part

/-- HOST's variable of the record's kind holds the record. -/
def holdsRecord (rec : OutRecord) (s : State) : Prop :=
  match rec with
  | .nothing => True
  | .state r => s.outState = r
  | .proConfig r => s.outProCfg = r
  | .stdConfig r => s.outStdCfg = r

/-- The operation has returned 0, with what it received in HOST's variable and its outputs at idle (rule R188). -/
structure Part.Done (p : Part) (s : State) : Prop where
  cur : s.cur = none
  result : s.result = .code 0
  clock : s.outCtl = false
  data : s.outData = false
  record : ∃ buf, p.received 456 buf ∧ holdsRecord (p.record buf) s

/-- The operation aborts, or it has returned a code that is not 0 (rule R232). -/
def Failed (i : Instr) (s : State) : Prop :=
  (s.cur = some i ∧ ∃ code, code ≠ 0 ∧ (s.sub = .abortCtl code ∨ s.sub = .abortData code)) ∨
    (s.cur = none ∧ ∃ code, code ≠ 0 ∧ s.result = .code code)

/-- What stays as it is at a side of a loopback: its configuration, its Setup done, and HOST's operand values. -/
structure Station (p : Part) (s : State) : Prop where
  inv : s.inv = true
  cfg : s.cfg = p.cfg
  wf : s.cfg.wf = true
  call : decode (.op p.code s.args) = .ok p.op
  done : s.setupDone = true
  dirs : dirsSet s = true

/-! ## From one position to the next -/

namespace Part
variable {p : Part} {n : Nat} {s t : State} {buf : BitBuffer}

/-- The sample at position `n` is one that is kept. -/
def keeps (p : Part) (n : Nat) : Prop := n % 6 = p.samples ∧ p.first ≤ n / 6 ∧ n / 6 < p.first + p.kept

theorem received_succ_of_skip (hp : p.Ordered) (h : p.received n buf) (hn : ¬p.keeps n) : p.received (n + 1) buf := by
  have hsamples := hp.samples
  unfold keeps at hn
  exact fun k hlo hhi hk => h k hlo hhi (by omega)

theorem received_succ_of_put (hp : p.Ordered) (h : p.received n buf) (hn : p.keeps n)
    (hlen : p.kept ≤ 8 * buf.bytes.length) {v : Bool} (hv : v = p.heard (n / 6)) :
    p.received (n + 1) (rawPutBit buf (n / 6 - p.first) v) := by
  have hsamples := hp.samples
  obtain ⟨hl, hlo, hhi⟩ := hn
  intro k hklo hkhi hk
  rw [rawBit_rawPutBit _ _ _ _ (by omega)]
  split
  case isTrue heq =>
    obtain rfl : k = n / 6 := by omega
    exact hv
  case isFalse hne => exact h k hklo hkhi (by omega)

/-- What a label's call may do to the clock line: nothing, or its edge. -/
def ClockMoves (p : Part) (n : Nat) (s t : State) : Prop :=
  (t.outCtl = s.outCtl ∧ n % 6 ≠ p.rises ∧ n % 6 ≠ p.falls) ∨ (t.outCtl = true ∧ n % 6 = p.rises) ∨
    (t.outCtl = false ∧ n % 6 = p.falls)

/-- What it may do to the data line: nothing, or drive the cycle's level. -/
def DataMoves (p : Part) (n : Nat) (s t : State) : Prop :=
  (t.outData = s.outData ∧ n % 6 ≠ p.drives) ∨ (t.outData = p.level (n / 6) ∧ n % 6 = p.drives)

/-- What it may do to `RXBUF`: nothing, or keep the peer's level. -/
def SampleMoves (p : Part) (n : Nat) (s t : State) : Prop :=
  (t.rxbuf = s.rxbuf ∧ ¬p.keeps n) ∨ (p.keeps n ∧ p.kept ≤ 8 * s.rxbuf.bytes.length ∧
    t.rxbuf = rawPutBit s.rxbuf (n / 6 - p.first) (p.heard (n / 6)))

theorem SampleMoves.of_ne (ht : t.rxbuf = s.rxbuf) (hn : n % 6 ≠ p.samples) : p.SampleMoves n s t :=
  .inl ⟨ht, fun hkeeps => hn hkeeps.1⟩

theorem ClockMoves.clock_succ (hp : p.Ordered) (h : p.ClockMoves n s t) (hs : s.outCtl = p.high n) :
    t.outCtl = p.high (n + 1) := by
  have hclock := hp.clock
  have hfalls := hp.falls
  rcases h with ⟨ht, hr, hf⟩ | ⟨ht, hr⟩ | ⟨ht, hf⟩
  · exact ht.trans (hs.trans (decide_eq_decide.mpr (by omega)))
  · exact ht.trans (decide_eq_true (by omega)).symm
  · exact ht.trans (decide_eq_false (by omega)).symm

theorem DataMoves.data_succ (h : p.DataMoves n s t) (hs : p.drives < n % 6 → s.outData = p.level (n / 6))
    (hd : p.drives < (n + 1) % 6) : t.outData = p.level ((n + 1) / 6) := by
  have hk : (n + 1) / 6 = n / 6 := by omega
  rw [hk]
  rcases h with ⟨ht, hn⟩ | ⟨ht, -⟩
  · exact ht.trans (hs (by omega))
  · exact ht

theorem SampleMoves.received_succ (hp : p.Ordered) (h : p.SampleMoves n s t) (hs : p.received n s.rxbuf) :
    p.received (n + 1) t.rxbuf := by
  rcases h with ⟨ht, hn⟩ | ⟨hn, hlen, ht⟩
  · rw [ht]
    exact received_succ_of_skip hp hs hn
  · rw [ht]
    exact received_succ_of_put hp hs hn hlen rfl

theorem entry_cases (ph : Phase) : p.entry ph = .first .read ∨ p.entry ph = .start := by
  unfold entry
  split
  · exact .inl rfl
  · exact .inr rfl

/-- A label's call leads to the next position if it leaves the lines, the buffers and the place as that position has
them. -/
theorem At.advances (hp : p.Ordered) (h : p.At n s) (c : PrimCall) (hcalls : t.calls = c :: s.calls)
    (hshare : frameCalls [c] = p.share (n % 6)) (hcur : t.cur = s.cur) (hd : t.delayLeft = 0)
    (henters : n ≠ 5 ∧ t.sub = p.entry t.phase ∨ n = 5 ∧ t.sub = .deadline) (hpos : framePos t = n + 1)
    (htx : t.txbuf = s.txbuf) (hclock : p.ClockMoves n s t) (hdata : p.DataMoves n s t)
    (hrx : p.SampleMoves n s t) : p.Advances n s t := by
  refine ⟨⟨hcur.trans h.cur, ?_, hpos, htx.trans h.tx, hclock.clock_succ hp h.clock, hdata.data_succ h.data,
    hrx.received_succ hp h.rx⟩, hd, henters, c, hcalls, hshare⟩
  rcases henters with ⟨-, hsub⟩ | ⟨-, hsub⟩
  · rcases p.entry_cases t.phase with he | he <;> simp [hsub, he]
  · simp [hsub]

end Part
end Sys2Proof.Machine
end

section
/-! SEND.PRO and POLL.PRO as parts of a frame: each label's step goes from its position to the next. -/

namespace Sys2Proof.Machine
open Sys2Proof.Claims

/-- What the loopback needs of an operation as a part of a frame. -/
structure Part.Lawful (p : Part) : Prop where
  frame : isDataPlane p.op = true
  ordered : p.Ordered
  /-- It starts at position 0. -/
  starts : ∀ {s}, Station p s → s.cur = none → s.outCtl = false →
    ∃ t, exec p.op s = .next t ∧ p.At 0 t ∧ p.Ready t ∧ t.calls = [.clockRead s.now]
  /-- It stands at DONE, at the frame deadline, inside a wait, or at a label that waits for nothing. -/
  places : ∀ {n s}, Station p s → p.At n s → n = 456 ∨ n = 6 ∧ s.sub = .deadline ∨
    n < 456 ∧ (n % 6 = p.hears ∨ n % 6 = p.misses) ∧ p.entry s.phase = .first .read ∧ (∃ pos, s.sub = .first pos) ∨
    n < 456 ∧ n % 6 ≠ p.hears ∧ n % 6 ≠ p.misses ∧ s.sub = p.entry s.phase
  /-- With the peer's edge there, a label's step goes to the next position. -/
  advances : ∀ {n s}, Station p s → p.At n s → p.Ready s → n < 456 → (n % 6 = p.hears → s.wCtlIn = true) →
    (n % 6 = p.misses → s.wCtlIn = false) → (n % 6 = p.samples → s.wDataIn = p.heard (n / 6)) →
    ∃ t, exec p.op s = .next t ∧ p.Advances n s t
  /-- The frame deadline of cycle 0. -/
  deadline : ∀ {s}, Station p s → p.At 6 s → s.delayLeft = 0 → s.sub = .deadline →
    ∃ t, exec p.op s = .next t ∧ p.At 6 t ∧ p.Ready t ∧ t.calls = .clockRead s.now :: s.calls
  /-- Inside a wait the step is that of `WaitPin(CTL_IN, v, DL)`, whose deadline is a failure. -/
  waits : ∀ {n s pos}, Station p s → p.At n s → s.delayLeft = 0 → s.sub = .first pos →
    ∃ v reached, ∃ f : State → FrameFailure, (v = true ∧ n % 6 = p.hears ∨ v = false ∧ n % 6 = p.misses) ∧
      exec p.op s = waitStep .ctlIn v s.dl pos .first reached (fun u => beginAbort (f u) u) s
  /-- DONE returns the record. -/
  ends : ∀ {s}, Station p s → p.At 456 s → s.delayLeft = 0 →
    ∃ t, exec p.op s = .next t ∧ p.Done t ∧ t.calls = .pinWrite .dataOut false :: s.calls
  /-- Its step is one of `abort`'s writes, or its own. -/
  aborts : ∃ (r : State → Option TurnAway) (own : State → Out),
    ∀ s, exec p.op s = running (r s) p.op s fun s => orAbort s own

/-- Past its last label a cycle goes to the frame deadline, to the next cycle's first label, or to DONE; each is
the next position (rules R181, R182, R185). -/
theorem cycleEnd_goto (entry : Sub) (u : State) (hcyc : u.cyc.toNat ≤ 75) : ∃ ph c sub,
    (if u.cyc = 0 then .next (goto .f u.cyc .deadline u) else proNextCycle entry u : Out) = .next (goto ph c sub u) ∧
      6 * c.toNat + labelIndex ph sub = 6 * u.cyc.toNat + 6 ∧
      (u.cyc ≠ 0 ∧ (ph = .a ∧ sub = entry ∨ ph = .done ∧ sub = .start) ∨ u.cyc = 0 ∧ sub = .deadline) := by
  by_cases hzero : u.cyc = 0
  · exact ⟨.f, u.cyc, .deadline, if_pos hzero, rfl, .inr ⟨hzero, rfl⟩⟩
  by_cases hlast : u.cyc.toNat < 75
  · refine ⟨.a, u.cyc + 1, entry, (if_neg hzero).trans (proNextCycle_of_lt hlast), ?_, .inl ⟨hzero, .inl ⟨rfl, rfl⟩⟩⟩
    rw [cyc_succ_toNat hlast]
    rfl
  · exact ⟨.done, u.cyc, .start, (if_neg hzero).trans (proNextCycle_of_last (by omega)), rfl,
      .inl ⟨hzero, .inr ⟨rfl, rfl⟩⟩⟩

/-- Label F of cycle 0 is the only one at position 5. -/
theorem position_ne_five {c : BitVec 7} {n : Nat} (hpos : n = 6 * c.toNat + 5) (hc : c ≠ 0) : n ≠ 5 := by
  bv_omega

/-! ## SEND.PRO -/

/-- Where SEND.PRO stands at position `n`, label by label (rule R181). -/
inductive SendStands (n : Nat) (s : State) : Prop where
  | a (hph : s.phase = .a) (hsub : s.sub = .start) (hpos : n = 6 * s.cyc.toNat)
  | b (hph : s.phase = .b) (hsub : s.sub = .start) (hpos : n = 6 * s.cyc.toNat + 1)
  | c {pos : WaitPos} (hph : s.phase = .c) (hsub : s.sub = .first pos) (hpos : n = 6 * s.cyc.toNat + 2)
  | d (hph : s.phase = .d) (hsub : s.sub = .start) (hpos : n = 6 * s.cyc.toNat + 3)
  | e (hph : s.phase = .e) (hsub : s.sub = .start) (hpos : n = 6 * s.cyc.toNat + 4)
  | f {pos : WaitPos} (hph : s.phase = .f) (hsub : s.sub = .first pos) (hpos : n = 6 * s.cyc.toNat + 5)
  | deadline (hph : s.phase = .f) (hsub : s.sub = .deadline) (hzero : s.cyc = 0) (hpos : n = 6)
  | done (hph : s.phase = .done) (hsub : s.sub = .start) (hpos : n = 456)

section
variable {cfg : Config} {st : JoystickState} {wait : Word} {peer : BitBuffer} {n : Nat} {s : State}

theorem sendPart_running (hst : Station (sendPart cfg st wait peer) s) (h : (sendPart cfg st wait peer).At n s) :
    s.cyc.toNat ≤ 75 ∧ s.rxbuf.N = 19 ∧ 19 ≤ 8 * s.rxbuf.bytes.length ∧ sendProPlace s = true := by
  obtain ⟨hb, hcyc, hp, -, -⟩ := (State.inv_iff s).mp hst.inv
  obtain ⟨hr, -, hp⟩ := (placeOk_frame rfl h.cur).mp hp
  obtain ⟨hinst, -⟩ := isInstance_of_planeRefusal hr
  obtain ⟨-, hN⟩ := bufferWidths hb hinst
  obtain ⟨-, hrx, -, -⟩ := (buffersOk_iff s).mp hb
  have hbits := capacity_le_bits hrx
  have hN : s.rxbuf.N = 19 := hN
  exact ⟨hcyc, hN, hN ▸ hbits, hp⟩

theorem sendPart_stands (hst : Station (sendPart cfg st wait peer) s) (h : (sendPart cfg st wait peer).At n s) :
    SendStands n s := by
  obtain ⟨-, -, -, hp⟩ := sendPart_running hst h
  have hpos : 6 * s.cyc.toNat + labelIndex s.phase s.sub = n := h.pos
  obtain ⟨hctl, hdata⟩ := h.goes
  rcases sendProPlace_cases hp hctl hdata with ⟨hph, hsub⟩ | ⟨hph, hsub⟩ | ⟨hph, pos, hsub⟩ | ⟨hph, hsub⟩ |
    ⟨hph, hsub⟩ | ⟨hph, ⟨pos, hsub⟩ | hsub⟩ | ⟨hph, hsub⟩ <;> rw [hph, hsub] at hpos
  · exact .a hph hsub hpos.symm
  · exact .b hph hsub hpos.symm
  · exact .c hph hsub hpos.symm
  · exact .d hph hsub hpos.symm
  · exact .e hph hsub hpos.symm
  · exact .f hph hsub hpos.symm
  · have hzero := cyc_eq_zero_of_sendProDeadline hp hph hsub
    exact .deadline hph hsub hzero (by rw [hzero] at hpos; exact hpos.symm)
  · have hlast : s.cyc = 75 := by
      simp only [sendProPlace, hph, hsub, Bool.and_eq_true, decide_eq_true_eq] at hp
      exact hp.2
    exact .done hph hsub (by rw [hlast] at hpos; exact hpos.symm)

theorem sendPart_ordered (cfg : Config) (st : JoystickState) (wait : Word) (peer : BitBuffer) :
    (sendPart cfg st wait peer).Ordered := by
  constructor <;> simp [sendPart]

theorem sampleInSync_of_pollLevel (h : s.wDataIn = pollLevel peer s.cyc.toNat) : sampleInSync s := by
  by_cases hlo : 57 ≤ s.cyc.toNat
  · constructor <;> omega
  · rw [pollLevel, if_neg hlo] at h
    grind

theorem sendPart_advances (hst : Station (sendPart cfg st wait peer) s) (h : (sendPart cfg st wait peer).At n s)
    (hready : (sendPart cfg st wait peer).Ready s) (hn : n < 456) (hhears : n % 6 = 2 → s.wCtlIn = true)
    (hmisses : n % 6 = 5 → s.wCtlIn = false) (hdata : n % 6 = 3 → s.wDataIn = pollLevel peer (n / 6)) :
    ∃ t, exec (.sendPro st wait) s = .next t ∧ (sendPart cfg st wait peer).Advances n s t := by
  have hp := sendPart_ordered cfg st wait peer
  obtain ⟨hdelay, henters⟩ := hready
  obtain ⟨hcyc, hrx, hbits, -⟩ := sendPart_running hst h
  cases sendPart_stands hst h with
  | a hph hsub hpos =>
    have hl : n % 6 = 0 := by omega
    have hk : s.cyc.toNat = n / 6 := by omega
    have htx : s.txbuf.N = 56 := by rw [h.tx]; exact encProState_N st
    refine ⟨_, exec_sendPro_at ⟨h.cur, hdelay, hph, hsub⟩ fun hph hsub =>
      (sendProStep_a hph hsub).trans (sendProA_eq htx), ?_⟩
    refine h.advances hp _ rfl (by rw [hl]; rfl) rfl hdelay (.inl ⟨by omega, rfl⟩) (by rw [hpos]; rfl) rfl
      (.inl ⟨rfl, (by omega : n % 6 ≠ 1), (by omega : n % 6 ≠ 4)⟩) (.inr ⟨?_, hl⟩)
      (.of_ne rfl (by omega : n % 6 ≠ 3))
    show sendLevel s.txbuf s.cyc.toNat = sendLevel (encProState st) (n / 6)
    rw [h.tx, hk]
    rfl
  | b hph hsub hpos =>
    have hl : n % 6 = 1 := by omega
    refine ⟨_, exec_sendPro_at ⟨h.cur, hdelay, hph, hsub⟩ sendProStep_b, ?_⟩
    exact h.advances hp _ rfl (by rw [hl]; rfl) rfl hdelay (.inl ⟨by omega, rfl⟩) (by rw [hpos]; rfl) rfl
      (.inr (.inl ⟨rfl, hl⟩)) (.inl ⟨rfl, (by omega : n % 6 ≠ 0)⟩) (.of_ne rfl (by omega : n % 6 ≠ 3))
  | c hph hsub hpos =>
    have hl : n % 6 = 2 := by omega
    have hread : s.sub = .first .read := henters.trans (hph ▸ rfl)
    refine ⟨_, exec_sendPro_at ⟨h.cur, hdelay, hph, hread⟩ fun hph hsub =>
      (sendProStep_c hph hsub).trans (waitStep_read_of_level (hhears hl)), ?_⟩
    exact h.advances hp _ rfl (by rw [hl]; rfl) rfl hdelay (.inl ⟨by omega, rfl⟩) (by rw [hpos]; rfl) rfl
      (.inl ⟨rfl, (by omega : n % 6 ≠ 1), (by omega : n % 6 ≠ 4)⟩) (.inl ⟨rfl, (by omega : n % 6 ≠ 0)⟩)
      (.of_ne rfl (by omega : n % 6 ≠ 3))
  | d hph hsub hpos =>
    have hl : n % 6 = 3 := by omega
    have hk : n / 6 = s.cyc.toNat := by omega
    have hlevel : s.wDataIn = pollLevel peer s.cyc.toNat := hk ▸ hdata hl
    have hsync := sampleInSync_of_pollLevel hlevel
    by_cases hkept : 57 ≤ s.cyc.toNat
    · refine ⟨_, exec_sendPro_at ⟨h.cur, hdelay, hph, hsub⟩ fun hph hsub =>
        (sendProStep_d hph hsub).trans (sendProD_of_keep hrx hkept hcyc), ?_⟩
      refine h.advances hp _ rfl (by rw [hl]; rfl) rfl hdelay (.inl ⟨by omega, rfl⟩) (by rw [hpos]; rfl) rfl
        (.inl ⟨rfl, (by omega : n % 6 ≠ 1), (by omega : n % 6 ≠ 4)⟩) (.inl ⟨rfl, (by omega : n % 6 ≠ 0)⟩)
        (.inr ⟨⟨hl, (by omega : 57 ≤ n / 6), (by omega : n / 6 < 57 + 19)⟩, hbits, ?_⟩)
      show rawPutBit s.rxbuf (s.cyc.toNat - 57) s.wDataIn = rawPutBit s.rxbuf (n / 6 - 57) (pollLevel peer (n / 6))
      rw [hlevel, hk]
    · refine ⟨_, exec_sendPro_at ⟨h.cur, hdelay, hph, hsub⟩ fun hph hsub =>
        (sendProStep_d hph hsub).trans (sendProD_of_skip hsync (by omega)), ?_⟩
      exact h.advances hp _ rfl (by rw [hl]; rfl) rfl hdelay (.inl ⟨by omega, rfl⟩) (by rw [hpos]; rfl) rfl
        (.inl ⟨rfl, (by omega : n % 6 ≠ 1), (by omega : n % 6 ≠ 4)⟩) (.inl ⟨rfl, (by omega : n % 6 ≠ 0)⟩)
        (.inl ⟨rfl, fun ⟨_, hlo, _⟩ => hkept (hk ▸ hlo)⟩)
  | e hph hsub hpos =>
    have hl : n % 6 = 4 := by omega
    refine ⟨_, exec_sendPro_at ⟨h.cur, hdelay, hph, hsub⟩ sendProStep_e, ?_⟩
    exact h.advances hp _ rfl (by rw [hl]; rfl) rfl hdelay (.inl ⟨by omega, rfl⟩) (by rw [hpos]; rfl) rfl
      (.inr (.inr ⟨rfl, hl⟩)) (.inl ⟨rfl, (by omega : n % 6 ≠ 0)⟩) (.of_ne rfl (by omega : n % 6 ≠ 3))
  | f hph hsub hpos =>
    have hl : n % 6 = 5 := by omega
    have hread : s.sub = .first .read := henters.trans (hph ▸ rfl)
    obtain ⟨ph, c, sub, hnext, hpos', hsub'⟩ := cycleEnd_goto .start (s.called (.pinRead .ctlIn false)) hcyc
    refine ⟨_, exec_sendPro_at ⟨h.cur, hdelay, hph, hread⟩ fun hph hsub =>
      (sendProStep_f hph hsub).trans ((waitStep_read_of_level (p := .ctlIn) (hmisses hl)).trans hnext), ?_⟩
    refine h.advances hp _ rfl (by rw [hl]; rfl) rfl hdelay ?_ (hpos'.trans (by rw [hpos]; rfl)) rfl
      (.inl ⟨rfl, (by omega : n % 6 ≠ 1), (by omega : n % 6 ≠ 4)⟩) (.inl ⟨rfl, (by omega : n % 6 ≠ 0)⟩)
      (.of_ne rfl (by omega : n % 6 ≠ 3))
    rcases hsub' with ⟨hne, ⟨rfl, rfl⟩ | ⟨rfl, rfl⟩⟩ | ⟨hzero, rfl⟩
    · exact .inl ⟨position_ne_five hpos hne, rfl⟩
    · exact .inl ⟨position_ne_five hpos hne, rfl⟩
    · have hzero : s.cyc = 0 := hzero
      exact .inr ⟨by simp [hpos, hzero], rfl⟩
  | deadline hph hsub => cases hsub.symm.trans (henters.trans (hph ▸ rfl) : s.sub = .first .read)
  | done => omega

end

theorem sendPart_lawful (cfg : Config) (st : JoystickState) (wait : Word) (peer : BitBuffer)
    (hinst : isInstance cfg .pro .throttleClient = true) : (sendPart cfg st wait peer).Lawful := by
  constructor
  case frame => rfl
  case ordered => exact sendPart_ordered cfg st wait peer
  case starts =>
    intro s hst hcur hlow
    refine ⟨_, exec_sendPro_rest hcur (hst.cfg ▸ hinst) hst.done, ⟨rfl, by simp, rfl, rfl, hlow, ?_, ?_⟩,
      ⟨rfl, rfl⟩, rfl⟩
    · exact fun h => absurd h (by decide : ¬0 < 0 % 6)
    · exact fun k _ _ hk => absurd hk (by omega)
  case places =>
    intro n s hst h
    obtain ⟨hcyc, -⟩ := sendPart_running hst h
    cases sendPart_stands hst h with
    | a hph hsub | b hph hsub | d hph hsub | e hph hsub =>
      exact .inr (.inr (.inr ⟨by omega, (by omega : n % 6 ≠ 2), (by omega : n % 6 ≠ 5), by rw [hsub, hph]; rfl⟩))
    | c hph hsub =>
      exact .inr (.inr (.inl ⟨by omega, .inl (by omega : n % 6 = 2), by rw [hph]; rfl, _, hsub⟩))
    | f hph hsub =>
      exact .inr (.inr (.inl ⟨by omega, .inr (by omega : n % 6 = 5), by rw [hph]; rfl, _, hsub⟩))
    | deadline _ hsub _ hpos => exact .inr (.inl ⟨hpos, hsub⟩)
    | done _ _ hpos => exact .inl hpos
  case advances => exact sendPart_advances
  case deadline =>
    intro s hst h hdelay hsub
    cases sendPart_stands hst h with
    | deadline hph hsub hzero =>
      refine ⟨_, exec_sendPro_at ⟨h.cur, hdelay, hph, hsub⟩ fun hph hsub =>
        (sendProStep_deadline hph hsub).trans (proFrameDeadline_of_zero hzero), ?_, ⟨hdelay, rfl⟩, rfl⟩
      exact ⟨h.cur, by simp, rfl, h.tx, h.clock, h.data, h.rx⟩
    | _ _ hsub' => cases hsub'.symm.trans hsub
  case waits =>
    intro n s pos hst h hdelay hsub
    cases sendPart_stands hst h with
    | c hph =>
      exact ⟨true, _, proFirstWait, .inl ⟨rfl, (by omega : n % 6 = 2)⟩,
        exec_sendPro_at ⟨h.cur, hdelay, hph, hsub⟩ sendProStep_c⟩
    | f hph =>
      exact ⟨false, _, fun _ => .peerUnresponsive, .inr ⟨rfl, (by omega : n % 6 = 5)⟩,
        exec_sendPro_at ⟨h.cur, hdelay, hph, hsub⟩ sendProStep_f⟩
    | _ _ hsub' => cases hsub'.symm.trans hsub
  case ends =>
    intro s hst h hdelay
    obtain ⟨hcyc, hrx, -⟩ := sendPart_running hst h
    cases sendPart_stands hst h with
    | done hph hsub =>
      refine ⟨_, exec_sendPro_at ⟨h.cur, hdelay, hph, hsub⟩ fun hph hsub =>
        (sendProStep_done hph hsub).trans (sendProDone_eq hrx), ⟨rfl, rfl, h.clock, rfl, s.rxbuf, h.rx, ?_⟩, rfl⟩
      show proConfigOf s.cfg s.rxbuf = proConfigOf cfg s.rxbuf
      rw [hst.cfg]
      rfl
    | _ => omega
  case aborts => exact ⟨_, _, fun s => rfl⟩

/-! ## POLL.PRO -/

/-- Where POLL.PRO stands at position `n`, label by label (rule R182). -/
inductive PollStands (n : Nat) (s : State) : Prop where
  | a {pos : WaitPos} (hph : s.phase = .a) (hsub : s.sub = .first pos) (hpos : n = 6 * s.cyc.toNat)
  | b (hph : s.phase = .b) (hsub : s.sub = .start) (hpos : n = 6 * s.cyc.toNat + 1)
  | c (hph : s.phase = .c) (hsub : s.sub = .start) (hpos : n = 6 * s.cyc.toNat + 2)
  | d (hph : s.phase = .d) (hsub : s.sub = .start) (hpos : n = 6 * s.cyc.toNat + 3)
  | e {pos : WaitPos} (hph : s.phase = .e) (hsub : s.sub = .first pos) (hpos : n = 6 * s.cyc.toNat + 4)
  | f (hph : s.phase = .f) (hsub : s.sub = .start) (hpos : n = 6 * s.cyc.toNat + 5)
  | deadline (hph : s.phase = .f) (hsub : s.sub = .deadline) (hzero : s.cyc = 0) (hpos : n = 6)
  | done (hph : s.phase = .done) (hsub : s.sub = .start) (hpos : n = 456)

section
variable {cfg : Config} {r : ProConfig} {wait : Word} {peer : BitBuffer} {n : Nat} {s : State}

theorem pollPart_running (hst : Station (pollPart cfg r wait peer) s) (h : (pollPart cfg r wait peer).At n s) :
    s.cyc.toNat ≤ 75 ∧ s.rxbuf.N = 56 ∧ 56 ≤ 8 * s.rxbuf.bytes.length ∧ pollProPlace s = true := by
  obtain ⟨hb, hcyc, hp, -, -⟩ := (State.inv_iff s).mp hst.inv
  obtain ⟨hr, -, hp⟩ := (placeOk_frame rfl h.cur).mp hp
  obtain ⟨hinst, -⟩ := isInstance_of_planeRefusal hr
  obtain ⟨-, hN⟩ := bufferWidths hb hinst
  obtain ⟨-, hrx, -, -⟩ := (buffersOk_iff s).mp hb
  have hbits := capacity_le_bits hrx
  have hN : s.rxbuf.N = 56 := hN
  exact ⟨hcyc, hN, hN ▸ hbits, hp⟩

theorem pollPart_stands (hst : Station (pollPart cfg r wait peer) s) (h : (pollPart cfg r wait peer).At n s) :
    PollStands n s := by
  obtain ⟨-, -, -, hp⟩ := pollPart_running hst h
  have hpos : 6 * s.cyc.toNat + labelIndex s.phase s.sub = n := h.pos
  obtain ⟨hctl, hdata⟩ := h.goes
  rcases pollProPlace_cases hp hctl hdata with ⟨hph, pos, hsub⟩ | ⟨hph, hsub⟩ | ⟨hph, hsub⟩ | ⟨hph, hsub⟩ |
    ⟨hph, pos, hsub⟩ | ⟨hph, hsub | hsub⟩ | ⟨hph, hsub⟩ <;> rw [hph, hsub] at hpos
  · exact .a hph hsub hpos.symm
  · exact .b hph hsub hpos.symm
  · exact .c hph hsub hpos.symm
  · exact .d hph hsub hpos.symm
  · exact .e hph hsub hpos.symm
  · exact .f hph hsub hpos.symm
  · have hzero := cyc_eq_zero_of_pollProDeadline hp hph hsub
    exact .deadline hph hsub hzero (by rw [hzero] at hpos; exact hpos.symm)
  · have hlast : s.cyc = 75 := by
      simp only [pollProPlace, hph, hsub, Bool.and_eq_true, decide_eq_true_eq] at hp
      exact hp.2
    exact .done hph hsub (by rw [hlast] at hpos; exact hpos.symm)

theorem pollPart_ordered (cfg : Config) (r : ProConfig) (wait : Word) (peer : BitBuffer) :
    (pollPart cfg r wait peer).Ordered := by
  constructor <;> simp [pollPart]

theorem pollPart_advances (hst : Station (pollPart cfg r wait peer) s) (h : (pollPart cfg r wait peer).At n s)
    (hready : (pollPart cfg r wait peer).Ready s) (hn : n < 456) (hhears : n % 6 = 0 → s.wCtlIn = true)
    (hmisses : n % 6 = 4 → s.wCtlIn = false) (hdata : n % 6 = 1 → s.wDataIn = sendLevel peer (n / 6)) :
    ∃ t, exec (.pollPro r wait) s = .next t ∧ (pollPart cfg r wait peer).Advances n s t := by
  have hp := pollPart_ordered cfg r wait peer
  obtain ⟨hdelay, henters⟩ := hready
  obtain ⟨hcyc, hrx, hbits, -⟩ := pollPart_running hst h
  cases pollPart_stands hst h with
  | a hph hsub hpos =>
    have hl : n % 6 = 0 := by omega
    have hread : s.sub = .first .read := henters.trans (hph ▸ rfl)
    refine ⟨_, exec_pollPro_at ⟨h.cur, hdelay, hph, hread⟩ fun hph hsub =>
      (pollProStep_a hph hsub).trans (waitStep_read_of_level (p := .ctlIn) (hhears hl)), ?_⟩
    exact h.advances hp _ rfl (by rw [hl]; rfl) rfl hdelay (.inl ⟨by omega, rfl⟩) (by rw [hpos]; rfl) rfl
      (.inl ⟨rfl, (by omega : n % 6 ≠ 3), (by omega : n % 6 ≠ 5)⟩) (.inl ⟨rfl, (by omega : n % 6 ≠ 2)⟩)
      (.of_ne rfl (by omega : n % 6 ≠ 1))
  | b hph hsub hpos =>
    have hl : n % 6 = 1 := by omega
    have hk : n / 6 = s.cyc.toNat := by omega
    have hlevel : s.wDataIn = sendLevel peer s.cyc.toNat := hk ▸ hdata hl
    by_cases hkept : s.cyc.toNat ≤ 55
    · refine ⟨_, exec_pollPro_at ⟨h.cur, hdelay, hph, hsub⟩ fun hph hsub =>
        (pollProStep_b hph hsub).trans (pollProB_of_keep hrx hkept), ?_⟩
      refine h.advances hp _ rfl (by rw [hl]; rfl) rfl hdelay (.inl ⟨by omega, rfl⟩) (by rw [hpos]; rfl) rfl
        (.inl ⟨rfl, (by omega : n % 6 ≠ 3), (by omega : n % 6 ≠ 5)⟩) (.inl ⟨rfl, (by omega : n % 6 ≠ 2)⟩)
        (.inr ⟨⟨hl, Nat.zero_le _, (by omega : n / 6 < 0 + 56)⟩, hbits, ?_⟩)
      show rawPutBit s.rxbuf s.cyc.toNat s.wDataIn = rawPutBit s.rxbuf (n / 6) (sendLevel peer (n / 6))
      rw [hlevel, hk]
    · refine ⟨_, exec_pollPro_at ⟨h.cur, hdelay, hph, hsub⟩ fun hph hsub =>
        (pollProStep_b hph hsub).trans (pollProB_of_skip (by omega)), ?_⟩
      refine h.advances hp _ rfl (by rw [hl]; rfl) rfl hdelay (.inl ⟨by omega, rfl⟩) (by rw [hpos]; rfl) rfl
        (.inl ⟨rfl, (by omega : n % 6 ≠ 3), (by omega : n % 6 ≠ 5)⟩) (.inl ⟨rfl, (by omega : n % 6 ≠ 2)⟩)
        (.inl ⟨rfl, fun ⟨_, _, hhi⟩ => ?_⟩)
      have hlast : n / 6 < 0 + 56 := hhi
      omega
  | c hph hsub hpos =>
    have hl : n % 6 = 2 := by omega
    have hk : s.cyc.toNat = n / 6 := by omega
    have htx : s.txbuf.N = 19 := by rw [h.tx]; exact encProCfg_N _ r
    refine ⟨_, exec_pollPro_at ⟨h.cur, hdelay, hph, hsub⟩ fun hph hsub =>
      (pollProStep_c hph hsub).trans (pollProC_eq htx hcyc), ?_⟩
    refine h.advances hp _ rfl (by rw [hl]; rfl) rfl hdelay (.inl ⟨by omega, rfl⟩) (by rw [hpos]; rfl) rfl
      (.inl ⟨rfl, (by omega : n % 6 ≠ 3), (by omega : n % 6 ≠ 5)⟩) (.inr ⟨?_, hl⟩)
      (.of_ne rfl (by omega : n % 6 ≠ 1))
    show pollLevel s.txbuf s.cyc.toNat = pollLevel (encProCfg cfg.ledCode r) (n / 6)
    rw [h.tx, hk]
    rfl
  | d hph hsub hpos =>
    have hl : n % 6 = 3 := by omega
    refine ⟨_, exec_pollPro_at ⟨h.cur, hdelay, hph, hsub⟩ pollProStep_d, ?_⟩
    exact h.advances hp _ rfl (by rw [hl]; rfl) rfl hdelay (.inl ⟨by omega, rfl⟩) (by rw [hpos]; rfl) rfl
      (.inr (.inl ⟨rfl, hl⟩)) (.inl ⟨rfl, (by omega : n % 6 ≠ 2)⟩) (.of_ne rfl (by omega : n % 6 ≠ 1))
  | e hph hsub hpos =>
    have hl : n % 6 = 4 := by omega
    have hread : s.sub = .first .read := henters.trans (hph ▸ rfl)
    refine ⟨_, exec_pollPro_at ⟨h.cur, hdelay, hph, hread⟩ fun hph hsub =>
      (pollProStep_e hph hsub).trans (waitStep_read_of_level (p := .ctlIn) (hmisses hl)), ?_⟩
    exact h.advances hp _ rfl (by rw [hl]; rfl) rfl hdelay (.inl ⟨by omega, rfl⟩) (by rw [hpos]; rfl) rfl
      (.inl ⟨rfl, (by omega : n % 6 ≠ 3), (by omega : n % 6 ≠ 5)⟩) (.inl ⟨rfl, (by omega : n % 6 ≠ 2)⟩)
      (.of_ne rfl (by omega : n % 6 ≠ 1))
  | f hph hsub hpos =>
    have hl : n % 6 = 5 := by omega
    obtain ⟨ph, c, sub, hnext, hpos', hsub'⟩ := cycleEnd_goto (.first .read) (pinWrite .ctlOut false s) hcyc
    refine ⟨_, exec_pollPro_at ⟨h.cur, hdelay, hph, hsub⟩ fun hph hsub => (pollProStep_f hph hsub).trans hnext, ?_⟩
    refine h.advances hp _ rfl (by rw [hl]; rfl) rfl hdelay ?_ (hpos'.trans (by rw [hpos]; rfl)) rfl
      (.inr (.inr ⟨rfl, hl⟩)) (.inl ⟨rfl, (by omega : n % 6 ≠ 2)⟩) (.of_ne rfl (by omega : n % 6 ≠ 1))
    rcases hsub' with ⟨hne, ⟨rfl, rfl⟩ | ⟨rfl, rfl⟩⟩ | ⟨hzero, rfl⟩
    · exact .inl ⟨position_ne_five hpos hne, rfl⟩
    · exact .inl ⟨position_ne_five hpos hne, rfl⟩
    · have hzero : s.cyc = 0 := hzero
      exact .inr ⟨by simp [hpos, hzero], rfl⟩
  | deadline hph hsub => cases hsub.symm.trans (henters.trans (hph ▸ rfl) : s.sub = .start)
  | done => omega

end

theorem pollPart_lawful (cfg : Config) (r : ProConfig) (wait : Word) (peer : BitBuffer)
    (hinst : isInstance cfg .pro .joystickClient = true) : (pollPart cfg r wait peer).Lawful := by
  constructor
  case frame => rfl
  case ordered => exact pollPart_ordered cfg r wait peer
  case starts =>
    intro s hst hcur hlow
    have htx : encProCfg s.cfg.ledCode r = encProCfg cfg.ledCode r := by rw [hst.cfg]; rfl
    refine ⟨_, exec_pollPro_rest hcur (hst.cfg ▸ hinst) hst.done, ⟨rfl, by simp, rfl, htx, hlow, ?_, ?_⟩,
      ⟨rfl, rfl⟩, rfl⟩
    · exact fun h => absurd h (by decide : ¬2 < 0 % 6)
    · exact fun k _ _ hk => absurd hk (by omega)
  case places =>
    intro n s hst h
    obtain ⟨hcyc, -⟩ := pollPart_running hst h
    cases pollPart_stands hst h with
    | b hph hsub | c hph hsub | d hph hsub | f hph hsub =>
      exact .inr (.inr (.inr ⟨by omega, (by omega : n % 6 ≠ 0), (by omega : n % 6 ≠ 4), by rw [hsub, hph]; rfl⟩))
    | a hph hsub =>
      exact .inr (.inr (.inl ⟨by omega, .inl (by omega : n % 6 = 0), by rw [hph]; rfl, _, hsub⟩))
    | e hph hsub =>
      exact .inr (.inr (.inl ⟨by omega, .inr (by omega : n % 6 = 4), by rw [hph]; rfl, _, hsub⟩))
    | deadline _ hsub _ hpos => exact .inr (.inl ⟨hpos, hsub⟩)
    | done _ _ hpos => exact .inl hpos
  case advances => exact pollPart_advances
  case deadline =>
    intro s hst h hdelay hsub
    cases pollPart_stands hst h with
    | deadline hph hsub hzero =>
      refine ⟨_, exec_pollPro_at ⟨h.cur, hdelay, hph, hsub⟩ fun hph hsub =>
        (pollProStep_deadline hph hsub).trans (proFrameDeadline_of_zero hzero), ?_, ⟨hdelay, rfl⟩, rfl⟩
      exact ⟨h.cur, by simp, rfl, h.tx, h.clock, h.data, h.rx⟩
    | _ _ hsub' => cases hsub'.symm.trans hsub
  case waits =>
    intro n s pos hst h hdelay hsub
    cases pollPart_stands hst h with
    | a hph =>
      exact ⟨true, _, proFirstWait, .inl ⟨rfl, (by omega : n % 6 = 0)⟩,
        exec_pollPro_at ⟨h.cur, hdelay, hph, hsub⟩ pollProStep_a⟩
    | e hph =>
      exact ⟨false, _, fun _ => .peerUnresponsive, .inr ⟨rfl, (by omega : n % 6 = 4)⟩,
        exec_pollPro_at ⟨h.cur, hdelay, hph, hsub⟩ pollProStep_e⟩
    | _ _ hsub' => cases hsub'.symm.trans hsub
  case ends =>
    intro s hst h hdelay
    obtain ⟨hcyc, hrx, -⟩ := pollPart_running hst h
    cases pollPart_stands hst h with
    | done hph hsub =>
      refine ⟨_, exec_pollPro_at ⟨h.cur, hdelay, hph, hsub⟩ fun hph hsub =>
        (pollProStep_done hph hsub).trans (pollProDone_eq hrx), ⟨rfl, rfl, h.clock, rfl, s.rxbuf, h.rx, ?_⟩, rfl⟩
      show proStateOf s.cfg s.rxbuf = proStateOf cfg s.rxbuf
      rw [hst.cfg]
      rfl
    | _ => omega
  case aborts => exact ⟨_, _, fun s => rfl⟩

end Sys2Proof.Machine
end

section
/-! One side of a loopback: what a step of a running part, a background turn and the peer's wires can do to it. -/

namespace Sys2Proof.Machine
open Sys2Proof.Claims

/-- `t` is `s` but for its clock, a delay in progress, the edges seen and the levels of its input wires. -/
def Aside (s t : State) : Prop :=
  t = { s with
    now := t.now, delayLeft := t.delayLeft, edgeCnt := t.edgeCnt, edgePending := t.edgePending, wCtlIn := t.wCtlIn
    wDataIn := t.wDataIn }

/-- ENGINE, EDGECB or CLOCK: the events that are no call and change no operand. -/
def isBackgroundTurn (e : Event) : Prop := e = .engine ∨ e = .edgecb ∨ ∃ us, e = .clock us

section
variable {p : Part} {n : Nat} {s t : State} {i : Instr}

theorem Aside.part_at (h : Aside s t) (hs : p.At n s) : p.At n t := by
  obtain ⟨hcur, hgoes, hpos, htx, hclock, hdata, hrx⟩ := hs
  rw [h]
  exact ⟨hcur, hgoes, hpos, htx, hclock, hdata, hrx⟩

theorem Aside.part_done (h : Aside s t) (hs : p.Done s) : p.Done t := by
  obtain ⟨hcur, hresult, hclock, hdata, buf, hbuf, hrec⟩ := hs
  rw [h]
  refine ⟨hcur, hresult, hclock, hdata, buf, hbuf, ?_⟩
  revert hrec
  cases p.record buf <;> exact id

theorem Aside.failed (h : Aside s t) (hs : Failed i s) : Failed i t := by
  rw [h]
  exact hs

theorem Station.of_eq (hst : Station p s) (hinv : t.inv = true) (hcfg : t.cfg = s.cfg) (hargs : t.args = s.args)
    (hdone : t.setupDone = s.setupDone) (hdirs : dirsSet t = true) : Station p t :=
  ⟨hinv, hcfg.trans hst.cfg, hcfg ▸ hst.wf, hargs ▸ hst.call, hdone ▸ hst.done, hdirs⟩

theorem Station.aside (hst : Station p s) (hinv : t.inv = true) (h : Aside s t) : Station p t := by
  refine hst.of_eq hinv ?_ ?_ ?_ ?_ <;> rw [h]
  exact hst.dirs

theorem Station.exec (hst : Station p s) (hi : isDataPlane i = true) (hcur : s.cur = none ∨ s.cur = some i)
    (h : exec i s = .next t) : Station p t := by
  have w := exec_wrote h
  have hset := (setup_ne_dataPlane hi).1
  exact hst.of_eq (exec_inv hst.inv (hcur.imp_right .inl) h) w.cfg w.args (w.setupDone_eq hset)
    (dirsSet_of_wrote w hset hst.dirs)

/-! ## Background turns -/

/-- A background turn is a step of the running operation, or it changes nothing the frame depends on. -/
theorem background_cases {e : Event} (he : isBackgroundTurn e) (h : turn e s = .next t) :
    (∃ i, s.cur = some i ∧ exec i s = .next t) ∨ (Aside s t ∧ t.wCtlIn = s.wCtlIn ∧ t.wDataIn = s.wDataIn) := by
  rcases he with rfl | rfl | ⟨us, rfl⟩
  · rcases engineTurn_next h with hrun | ⟨-, rfl⟩
    · exact .inl hrun
    · exact .inr ⟨rfl, rfl, rfl⟩
  · obtain rfl := Host.Outcome.next.inj ((execEdgeCb_next s).symm.trans h)
    refine .inr ?_
    split <;> exact ⟨rfl, rfl, rfl⟩
  · obtain rfl : clockAdvances us s = t := Host.Outcome.next.inj h
    exact .inr ⟨rfl, rfl, rfl⟩

/-! ## The peer's wires -/

theorem connect_eq {src : State} (hsrc : dirsSet src = true) (dst : State) :
    connect src dst = peerDrivesData src.outData (peerDrivesCtl src.outCtl dst) := by
  obtain ⟨hctl, hdata, -, -⟩ := (dirsSet_iff src).mp hsrc
  simp only [connect, wireCtlOut, wireDataOut, hctl, hdata]

theorem connect_aside (src dst : State) : Aside dst (connect src dst) := by
  unfold connect
  split <;> split <;> rfl

theorem peerDrivesData_inv {v : Bool} (h : s.inv = true) : (peerDrivesData v s).inv = true := h

theorem connect_inv {src dst : State} (hsrc : dirsSet src = true) (h : dst.inv = true) :
    (connect src dst).inv = true := by
  rw [connect_eq hsrc]
  exact peerDrivesData_inv (peerDrivesCtl_inv h)

/-! ## A step of a part -/

theorem failureCode_ne_zero {f : FrameFailure} {c : Config} (h : c.wf = true) : failureCode f c ≠ 0 := by
  simp only [Config.wf, Bool.and_eq_true, decide_eq_true_eq] at h
  have hback : c.backoff ≠ 0 := by
    unfold Config.backoff
    grind
  cases f with
  | noPeer => grind [failureCode]
  | peerUnresponsive | desync | checksumFailure => exact hback

theorem Failed.abort {code : Word} (hcur : s.cur = some i) (hcode : code ≠ 0)
    (hsub : s.sub = .abortCtl code ∨ s.sub = .abortData code) : Failed i s :=
  .inl ⟨hcur, code, hcode, hsub⟩

namespace Part.Lawful

/-- An abort goes on to its end, whatever comes between. -/
theorem failed_step (hp : p.Lawful) (hs : Failed p.op s) (hcur : s.cur = some p.op) (h : exec p.op s = .next t) :
    Failed p.op t := by
  obtain ⟨r, own, hop⟩ := hp.aborts
  rw [hop] at h
  obtain ⟨-, code, hcode, hsub⟩ | ⟨hnone, -⟩ := hs
  · by_cases hdelay : s.delayLeft = 0
    · rw [running_on hcur hdelay] at h
      rcases orAbort_next h with ⟨code', hsub', rfl⟩ | ⟨code', hsub', rfl⟩ | ⟨hctl, hdata, -⟩
      · obtain rfl : code' = code := by simpa [hsub'] using hsub
        exact .abort hcur hcode (.inr rfl)
      · obtain rfl : code' = code := by simpa [hsub'] using hsub
        exact .inr ⟨rfl, code', hcode, rfl⟩
      · exact (hsub.elim (hctl code) (hdata code)).elim
    · rw [running_held hcur (Nat.pos_of_ne_zero hdelay)] at h
      obtain rfl := Host.Outcome.next.inj h
      exact .abort hcur hcode hsub
  · cases hnone.symm.trans hcur

theorem failed_background {e : Event} (hp : p.Lawful) (hs : Failed p.op s) (he : isBackgroundTurn e)
    (h : turn e s = .next t) : Failed p.op t := by
  rcases background_cases he h with ⟨j, hcur, h⟩ | ⟨hside, -⟩
  · rcases hs with hs | ⟨hnone, -⟩
    · obtain rfl : j = p.op := Option.some.inj (hcur.symm.trans hs.1)
      exact hp.failed_step (.inl hs) hcur h
    · cases hnone.symm.trans hcur
  · exact hside.failed hs

/-- A wait that goes on stays at its position. -/
theorem at_of_wait {pos pos' : WaitPos} (hs : p.At n s) (hsub : s.sub = .first pos) (hcur : t.cur = s.cur)
    (hpos : t.phase = s.phase ∧ t.cyc = s.cyc ∧ t.sub = .first pos') (hbuf : t.txbuf = s.txbuf ∧ t.rxbuf = s.rxbuf)
    (hout : t.outCtl = s.outCtl ∧ t.outData = s.outData) : p.At n t := by
  obtain ⟨hph, hcyc, hsub'⟩ := hpos
  obtain ⟨htx, hrx⟩ := hbuf
  obtain ⟨hclock, hdata⟩ := hout
  refine ⟨hcur.trans hs.cur, by simp [hsub'], ?_, htx.trans hs.tx, hclock.trans hs.clock,
    fun hd => hdata.trans (hs.data hd), hrx ▸ hs.rx⟩
  rw [← hs.pos, framePos, framePos, hph, hcyc, hsub', hsub]
  cases s.phase <;> rfl

/-- Where a step of a part leads: it stays, it goes to the next position if the peer's edge it waits for is there, it
fails, or at DONE it returns. -/
inductive Goes (p : Part) (n : Nat) (s t : State) : Prop where
  | stays (h : p.At n t)
  | on (h : p.At (n + 1) t) (hn : n < 456) (hhears : n % 6 = p.hears → s.wCtlIn = true)
      (hmisses : n % 6 = p.misses → s.wCtlIn = false)
  | fails (h : Failed p.op t)
  | ends (hn : n = 456) (h : p.Done t)

theorem goes (hp : p.Lawful) (hst : Station p s) (hs : p.At n s)
    (hdata : n % 6 = p.samples → s.wDataIn = p.heard (n / 6)) (h : exec p.op s = .next t) : Goes p n s t := by
  by_cases hdelay : s.delayLeft = 0
  case neg =>
    obtain ⟨r, own, hop⟩ := hp.aborts
    rw [hop, running_held hs.cur (Nat.pos_of_ne_zero hdelay)] at h
    obtain rfl := Host.Outcome.next.inj h
    exact .stays hs
  have advances (hready : p.Ready s) (hn : n < 456) (hhears : n % 6 = p.hears → s.wCtlIn = true)
      (hmisses : n % 6 = p.misses → s.wCtlIn = false) : Goes p n s t := by
    obtain ⟨t', hnext, hadv⟩ := hp.advances hst hs hready hn hhears hmisses hdata
    obtain rfl := Host.Outcome.next.inj (h.symm.trans hnext)
    exact .on hadv.at_succ hn hhears hmisses
  rcases hp.places hst hs with rfl | ⟨rfl, hsub⟩ | ⟨hn, -, hentry, pos, hsub⟩ | ⟨hn, hhears, hmisses, hsub⟩
  · obtain ⟨t', hnext, hdone, -⟩ := hp.ends hst hs hdelay
    obtain rfl := Host.Outcome.next.inj (h.symm.trans hnext)
    exact .ends rfl hdone
  · obtain ⟨t', hnext, hat, -⟩ := hp.deadline hst hs hdelay hsub
    obtain rfl := Host.Outcome.next.inj (h.symm.trans hnext)
    exact .stays hat
  · obtain ⟨v, reached, f, hv, hwait⟩ := hp.waits hst hs hdelay hsub
    rw [hwait] at h
    rcases waitStep_next h with ⟨rfl, hlevel, -⟩ | ⟨-, -, rfl⟩ | ⟨-, -, h⟩ | ⟨-, -, rfl⟩ | ⟨-, rfl⟩
    · rw [← hwait] at h
      have hne := hp.ordered.waits
      have hlevel : s.wCtlIn = v := hlevel
      refine advances ⟨hdelay, hsub.trans hentry.symm⟩ hn ?_ ?_ <;> grind
    · exact .stays (at_of_wait hs hsub rfl ⟨rfl, rfl, rfl⟩ ⟨rfl, rfl⟩ ⟨rfl, rfl⟩)
    · obtain rfl := beginAbort_next h
      exact .fails (.abort hs.cur (failureCode_ne_zero hst.wf) (.inl rfl))
    · exact .stays (at_of_wait hs hsub rfl ⟨rfl, rfl, rfl⟩ ⟨rfl, rfl⟩ ⟨rfl, rfl⟩)
    · exact .stays (at_of_wait hs hsub rfl ⟨rfl, rfl, rfl⟩ ⟨rfl, rfl⟩ ⟨rfl, rfl⟩)
  · exact advances ⟨hdelay, hsub⟩ hn (fun hl => (hhears hl).elim) fun hl => (hmisses hl).elim

end Part.Lawful
end
end Sys2Proof.Machine
end

section
/-! Two parts on a loopback (O57): the pace at which each side can follow the other, and what a turn of either side
keeps. -/

namespace Sys2Proof.Machine
open Sys2Proof.Claims

/-! ## Where a side stands -/

/-- The side before its call, in its frame, or after its return. -/
inductive Part.Stands (p : Part) (called : Prop) (n : Nat) (s : State) : Prop where
  | idle (hcall : ¬called) (hn : n = 0) (hcur : s.cur = none) (hclock : s.outCtl = false)
  | runs (hcall : called) (h : p.At n s)
  | past (hcall : called) (hn : n = 456) (h : p.Done s)

section
variable {p q : Part} {n m : Nat} {s t u : State} {cp cq : Prop} {R : Nat → Nat → Prop}

theorem Part.high_eq_true : p.high n = true ↔ p.rises < n % 6 ∧ n % 6 ≤ p.falls := decide_eq_true_iff

theorem Part.high_eq_false : p.high n = false ↔ ¬(p.rises < n % 6 ∧ n % 6 ≤ p.falls) := decide_eq_false_iff_not

theorem Part.Stands.clock (h : p.Stands cp n s) : s.outCtl = p.high n := by
  cases h with
  | idle _ hn _ hclock => exact hclock.trans (by simp [hn, Part.high])
  | runs _ h => exact h.clock
  | past _ hn h => exact h.clock.trans (by simp [hn, Part.high])

theorem Part.Stands.data (h : p.Stands cp n s) (hn : p.drives < n % 6) : s.outData = p.level (n / 6) := by
  cases h with
  | idle _ hz => exact absurd hn (by simp [hz])
  | runs _ h => exact h.data hn
  | past _ hz => exact absurd hn (by simp [hz])

theorem Aside.stands (h : Aside s t) (hs : p.Stands cp n s) : p.Stands cp n t := by
  cases hs with
  | idle hcall hn hcur hclock => exact .idle hcall hn (by rw [h]; exact hcur) (by rw [h]; exact hclock)
  | runs hcall hs => exact .runs hcall (h.part_at hs)
  | past hcall hn hs => exact .past hcall hn (h.part_done hs)

/-! ## Keeping pace -/

/-- With `p` at position `n` and `q` at `m` as `R` relates them, `p` can go on only as the wires let it, and it samples
while `q` drives the cycle's level. -/
structure Paced (p q : Part) (R : Nat → Nat → Prop) : Prop where
  go : ∀ {n m}, R n m → n < 456 → (n % 6 = p.hears → q.high m = true) → (n % 6 = p.misses → q.high m = false) →
    R (n + 1) m
  sample : ∀ {n m}, R n m → n % 6 = p.samples → q.drives < m % 6 ∧ m / 6 = n / 6
  level : q.level = p.heard

/-- The positions a sender and a poller can have at one time: each edge of one waits for one of the other. -/
def inStep (n m : Nat) : Prop :=
  (n % 6 < 3 → 6 * (n / 6) ≤ m) ∧ (3 ≤ n % 6 → 6 * (n / 6) + 4 ≤ m) ∧ (m % 6 = 0 → 6 * (m / 6) ≤ n + 1) ∧
    (1 ≤ m % 6 → 6 * (m / 6) + 2 ≤ n) ∧ (m % 6 = 5 → m ≤ n)

section
variable (cfg cfg' : Config) (st : JoystickState) (r : ProConfig) (wait wait' : Word)

/-- The initiator's part of a Pro frame that carries `st` one way and `r` the other. -/
def senderOf : Part := sendPart cfg st wait (encProCfg cfg'.ledCode r)
/-- The responder's part of that frame. -/
def pollerOf : Part := pollPart cfg' r wait' (encProState st)

theorem sender_paced : Paced (senderOf cfg cfg' st r wait) (pollerOf cfg' st r wait') inStep where
  go {n m} h hn hhears hmisses := by
    simp only [senderOf, pollerOf, sendPart, pollPart, Part.high_eq_true, Part.high_eq_false, inStep] at *
    omega
  sample {n m} h hl := by
    simp only [senderOf, pollerOf, sendPart, pollPart, inStep] at *
    omega
  level := rfl

theorem poller_paced : Paced (pollerOf cfg' st r wait') (senderOf cfg cfg' st r wait) (flip inStep) where
  go {n m} h hn hhears hmisses := by
    simp only [senderOf, pollerOf, sendPart, pollPart, Part.high_eq_true, Part.high_eq_false, inStep, flip] at *
    omega
  sample {n m} h hl := by
    simp only [senderOf, pollerOf, sendPart, pollPart, inStep, flip] at *
    omega
  level := rfl
end

/-! ## The two sides together -/

/-- The two sides of a loopback in step: each is set up, stands where its part allows, and the wires connect them. -/
structure Linked (R : Nat → Nat → Prop) (p q : Part) (cp cq : Prop) (s u : State) : Prop where
  here : Station p s
  there : Station q u
  ctlIn : s.wCtlIn = u.outCtl
  dataIn : s.wDataIn = u.outData
  ctlOut : u.wCtlIn = s.outCtl
  dataOut : u.wDataIn = s.outData
  stand : ∃ n m, p.Stands cp n s ∧ q.Stands cq m u ∧ R n m

theorem Linked.symm (h : Linked R p q cp cq s u) : Linked (flip R) q p cq cp u s := by
  obtain ⟨n, m, hs, hu, hR⟩ := h.stand
  exact ⟨h.there, h.here, h.ctlOut, h.dataOut, h.ctlIn, h.dataIn, m, n, hu, hs, hR⟩

/-- A side's turn, then the wires. -/
theorem Linked.move {cp' : Prop} (h : Linked R p q cp cq s u) (ht : Station p t) (hctl : t.wCtlIn = s.wCtlIn)
    (hdata : t.wDataIn = s.wDataIn) (hstand : ∃ n m, p.Stands cp' n t ∧ q.Stands cq m u ∧ R n m) :
    Linked R p q cp' cq t (connect t u) := by
  obtain ⟨n, m, htn, hum, hR⟩ := hstand
  have hside := connect_aside t u
  refine ⟨ht, h.there.aside (connect_inv ht.dirs h.there.inv) hside, ?_, ?_, ?_, ?_, n, m, htn, hside.stands hum, hR⟩
  · rw [hctl, h.ctlIn, connect_eq ht.dirs]
    rfl
  · rw [hdata, h.dataIn, connect_eq ht.dirs]
    rfl
  · rw [connect_eq ht.dirs]
    rfl
  · rw [connect_eq ht.dirs]
    rfl

/-- What holds of a loopback all along: a side that was called has failed, or the two are in step. -/
def Track (R : Nat → Nat → Prop) (p q : Part) (cp cq : Prop) (s u : State) : Prop :=
  (cp ∧ Failed p.op s) ∨ (cq ∧ Failed q.op u) ∨ Linked R p q cp cq s u

theorem Track.symm (h : Track R p q cp cq s u) : Track (flip R) q p cq cp u s := by
  rcases h with h | h | h
  · exact .inr (.inl h)
  · exact .inl h
  · exact .inr (.inr h.symm)

/-- A step of a side that runs keeps the two in step, unless it fails. -/
theorem Linked.step (hp : p.Lawful) (hpace : Paced p q R) (h : Linked R p q cp cq s u) {i : Instr}
    (hcur : s.cur = some i) (hstep : exec i s = .next t) : Track R p q cp cq t (connect t u) := by
  obtain ⟨n, m, hs, hu, hR⟩ := h.stand
  cases hs with
  | idle _ _ hnone => cases hnone.symm.trans hcur
  | past _ _ hdone => cases hdone.cur.symm.trans hcur
  | runs hcp hs =>
    obtain rfl : i = p.op := Option.some.inj (hcur.symm.trans hs.cur)
    have ht := h.here.exec hp.frame (.inr hcur) hstep
    have w := exec_wrote hstep
    have hdata (hl : n % 6 = p.samples) : s.wDataIn = p.heard (n / 6) := by
      obtain ⟨hdrives, hcycle⟩ := hpace.sample hR hl
      rw [h.dataIn, hu.data hdrives, hcycle, hpace.level]
    have hwire : s.wCtlIn = q.high m := h.ctlIn.trans hu.clock
    cases hp.goes h.here hs hdata hstep with
    | stays hat => exact .inr (.inr (h.move ht w.wCtlIn w.wDataIn ⟨n, m, .runs hcp hat, hu, hR⟩))
    | on hat hn hhears hmisses =>
      have hR' := hpace.go hR hn (fun hl => hwire ▸ hhears hl) fun hl => hwire ▸ hmisses hl
      exact .inr (.inr (h.move ht w.wCtlIn w.wDataIn ⟨n + 1, m, .runs hcp hat, hu, hR'⟩))
    | fails hfail => exact .inl ⟨hcp, hfail⟩
    | ends hn hdone => exact .inr (.inr (h.move ht w.wCtlIn w.wDataIn ⟨n, m, .past hcp hn hdone, hu, hR⟩))

theorem Track.background {e : Event} (hp : p.Lawful) (hpace : Paced p q R) (h : Track R p q cp cq s u)
    (he : isBackgroundTurn e) (hturn : turn e s = .next t) : Track R p q cp cq t (connect t u) := by
  rcases h with ⟨hcp, hfail⟩ | ⟨hcq, hfail⟩ | h
  · exact .inl ⟨hcp, hp.failed_background hfail he hturn⟩
  · exact .inr (.inl ⟨hcq, (connect_aside t u).failed hfail⟩)
  · rcases background_cases he hturn with ⟨i, hcur, hstep⟩ | ⟨hside, hctl, hdata⟩
    · exact h.step hp hpace hcur hstep
    · obtain ⟨n, m, hs, hu, hR⟩ := h.stand
      exact .inr (.inr (h.move (h.here.aside (turn_inv h.here.inv hturn) hside) hctl hdata
        ⟨n, m, hside.stands hs, hu, hR⟩))

/-- HOST's call starts the operation of a side that was not called before. -/
theorem turn_issue (hp : p.Lawful) (hst : Station p s) (hcur : s.cur = none) :
    turn (.issue p.code) s = exec p.op s := by
  have hne : p.op ≠ .edgeCb := fun h => by simpa [h, isDataPlane] using hp.frame
  exact call_of_decode hcur hst.call hne

theorem Linked.issue (hp : p.Lawful) (h : Linked R p q cp cq s u) (hcp : ¬cp) :
    ∃ t, turn (.issue p.code) s = .next t ∧ Linked R p q True cq t (connect t u) ∧ p.At 0 t ∧ p.Ready t ∧
      t.calls = [.clockRead s.now] := by
  obtain ⟨n, m, hs, hu, hR⟩ := h.stand
  cases hs with
  | runs hcp' | past hcp' => exact (hcp hcp').elim
  | idle _ hn hcur hclock =>
    subst hn
    obtain ⟨t, hnext, hat, hready, hcalls⟩ := hp.starts h.here hcur hclock
    have w := exec_wrote hnext
    have hmove := h.move (h.here.exec hp.frame (.inl hcur) hnext) w.wCtlIn w.wDataIn
      ⟨0, m, .runs trivial hat, hu, hR⟩
    exact ⟨t, (turn_issue hp h.here hcur).trans hnext, hmove, hat, hready, hcalls⟩

theorem Track.call (hp : p.Lawful) (h : Track R p q cp cq s u) (hcp : ¬cp)
    (hturn : turn (.issue p.code) s = .next t) : Track R p q True cq t (connect t u) := by
  rcases h with ⟨hcp', -⟩ | ⟨hcq, hfail⟩ | h
  · exact (hcp hcp').elim
  · exact .inr (.inl ⟨hcq, (connect_aside t u).failed hfail⟩)
  · obtain ⟨t', hturn', hlinked, -⟩ := h.issue hp hcp
    obtain rfl := Host.Outcome.next.inj (hturn.symm.trans hturn')
    exact .inr (.inr hlinked)

/-! ## Runs of a loopback -/

theorem linkTurn_onA {e : Event} {l l' : Link} (h : linkTurn (.onA e) l = some l') :
    ∃ t, turn e l.a = .next t ∧ l' = ⟨t, connect t l.b⟩ := by
  simp only [linkTurn] at h
  split at h
  · split at h
    · rename_i t hturn
      exact ⟨t, hturn, (Option.some.inj h).symm⟩
    · cases h
  · cases h

theorem linkTurn_onB {e : Event} {l l' : Link} (h : linkTurn (.onB e) l = some l') :
    ∃ t, turn e l.b = .next t ∧ l' = ⟨connect t l.a, t⟩ := by
  simp only [linkTurn] at h
  split at h
  · split at h
    · rename_i t hturn
      exact ⟨t, hturn, (Option.some.inj h).symm⟩
    · cases h
  · cases h

theorem linkTurns_cons {e : LinkEvent} {es : List LinkEvent} {l m : Link} (h : linkTurns (e :: es) l = some m) :
    ∃ l', linkTurn e l = some l' ∧ linkTurns es l' = some m := by
  simp only [linkTurns] at h
  split at h
  · rename_i l' hturn
    exact ⟨l', hturn, h⟩
  · cases h

theorem isBackground_onB (e : Event) : isBackground (.onB e) = isBackground (.onA e) := by
  cases e <;> rfl

theorem backgroundTurn_of_onA {e : Event} (h : isBackground (.onA e) = true) : isBackgroundTurn e := by
  cases e with
  | engine => exact .inl rfl
  | edgecb => exact .inr (.inl rfl)
  | clock us => exact .inr (.inr ⟨us, rfl⟩)
  | _ => cases h

theorem callsOf_background {e : LinkEvent} (he : isBackground e = true) (es : List LinkEvent) :
    callsOf (e :: es) = callsOf es := by
  simp [callsOf, he]

theorem callsOf_call {e : LinkEvent} (he : isBackground e = false) (es : List LinkEvent) :
    callsOf (e :: es) = e :: callsOf es := by
  simp [callsOf, he]

/-- Both laws of a pair of parts that keep pace, and what HOST calls on each side. -/
structure Pair (R : Nat → Nat → Prop) (p q : Part) : Prop where
  here : p.Lawful
  there : q.Lawful
  paced : Paced p q R
  pacedBack : Paced q p (flip R)

theorem Track.linkTurn_background (hpair : Pair R p q) {e : LinkEvent} {l l' : Link}
    (h : Track R p q cp cq l.a l.b) (he : isBackground e = true) (hturn : linkTurn e l = some l') :
    Track R p q cp cq l'.a l'.b := by
  rcases e with e | e
  · obtain ⟨t, hown, rfl⟩ := linkTurn_onA hturn
    exact h.background hpair.here hpair.paced (backgroundTurn_of_onA he) hown
  · obtain ⟨t, hown, rfl⟩ := linkTurn_onB hturn
    exact (h.symm.background hpair.there hpair.pacedBack (backgroundTurn_of_onA (isBackground_onB e ▸ he)) hown).symm

/-- A run in which HOST makes each side's call at most once keeps track; a side was called when no call of it is
left. -/
theorem Track.linkTurns (hpair : Pair R p q) {es : List LinkEvent} {l m : Link}
    (h : Track R p q (.onA (.issue p.code) ∉ callsOf es) (.onB (.issue q.code) ∉ callsOf es) l.a l.b)
    (honce : (callsOf es).Nodup) (hcalls : ∀ e ∈ callsOf es, e = .onA (.issue p.code) ∨ e = .onB (.issue q.code))
    (hrun : linkTurns es l = some m) : Track R p q True True m.a m.b := by
  induction es generalizing l with
  | nil =>
    obtain rfl := Option.some.inj hrun
    simpa [callsOf] using h
  | cons e es ih =>
    obtain ⟨l', hturn, hrun⟩ := linkTurns_cons hrun
    cases he : isBackground e with
    | true =>
      rw [callsOf_background he] at h honce hcalls
      exact ih (h.linkTurn_background hpair he hturn) honce hcalls hrun
    | false =>
      rw [callsOf_call he] at h honce hcalls
      obtain ⟨hnot, honce⟩ := List.nodup_cons.mp honce
      have hrest := fun e' he' => hcalls e' (List.mem_cons_of_mem e he')
      refine ih ?_ honce hrest hrun
      rcases hcalls e List.mem_cons_self with rfl | rfl
      · obtain ⟨t, hown, rfl⟩ := linkTurn_onA hturn
        simpa [hnot] using h.call hpair.here (by simp) hown
      · obtain ⟨t, hown, rfl⟩ := linkTurn_onB hturn
        simpa [hnot] using (h.symm.call hpair.there (by simp) hown).symm

/-- If both sides have returned 0, both are done, and the wires connect them. -/
theorem Track.done (h : Track R p q True True s u) (hs : s.cur = none) (hu : u.cur = none)
    (hs0 : s.result = .code 0) (hu0 : u.result = .code 0) : p.Done s ∧ q.Done u ∧ Linked R p q True True s u := by
  have not_failed {i : Instr} {v : State} (hv : v.cur = none) (hv0 : v.result = .code 0) : ¬Failed i v := by
    simp [Failed, hv, hv0]
  rcases h with ⟨-, hfail⟩ | ⟨-, hfail⟩ | h
  · exact (not_failed hs hs0 hfail).elim
  · exact (not_failed hu hu0 hfail).elim
  · have done_of {r : Part} {n : Nat} {v : State} (hv : v.cur = none) (hr : r.Stands True n v) : r.Done v := by
      cases hr with
      | idle hno => exact (hno trivial).elim
      | runs _ hat => cases hat.cur.symm.trans hv
      | past _ _ hdone => exact hdone
    obtain ⟨n, m, hsn, hum, -⟩ := h.stand
    exact ⟨done_of hs hsn, done_of hu hum, h⟩

end
end Sys2Proof.Machine
end

section
/-! Two Pro engines on a loopback agree (O57): what a side has received is the other's frame, which stands for the
other's record. -/

namespace Sys2Proof.Machine
open Sys2Proof.Claims

/-! ## What a received frame stands for -/

section
variable {A B : BitBuffer} {N : Nat} (cfg : Config)

theorem rawField_congr_of_lt {s w : Nat} (h : ∀ i < N, rawBit A i = rawBit B i) (hsw : s + w ≤ N) :
    rawField A s w = rawField B s w :=
  rawField_congr fun j hj => h (s + j) (by omega)

theorem proStateOf_congr (h : ∀ i < 56, rawBit A i = rawBit B i) : proStateOf cfg A = proStateOf cfg B := by
  have hfield {s w : Nat} : s + w ≤ 56 → rawField A s w = rawField B s w := rawField_congr_of_lt h
  simp [proStateOf, h, hfield]

theorem proConfigOf_congr (h : ∀ i < 19, rawBit A i = rawBit B i) : proConfigOf cfg A = proConfigOf cfg B := by
  have hfield {s w : Nat} : s + w ≤ 19 → rawField A s w = rawField B s w := rawField_congr_of_lt h
  simp [proConfigOf, h, hfield]

end

theorem returned_result {s : State} {r r' : Result} (h : (.next (s.returned r []) : Out) = .next (s.returned r' [])) :
    r = r' :=
  congrArg State.result (Host.Outcome.next.inj h)

theorem proStateOf_encProState (cfg : Config) {r : JoystickState} (hr : validProState r = true) :
    proStateOf cfg (encProState r) = r := by
  let s : State := { State.reset with cfg := cfg }
  have hs : s.cur = none := rfl
  obtain ⟨B, henc, hdec⟩ := proRecordsRoundTrip.1 r s s hr hs hs
  have hB : Result.buffer (encProState r) = .buffer B := returned_result ((exec_encProState hs r).symm.trans henc)
  obtain rfl := Result.buffer.inj hB
  rw [decProStateReadsFields _ s (encProState_N r).ge hs] at hdec
  exact (Result.state.inj (congrArg State.result (Host.Outcome.next.inj hdec))).1

theorem proConfigOf_encProCfg (cfg : Config) (hled : cfg.ledCode.wf = true) {r : ProConfig}
    (hr : validProConfig r = true) : proConfigOf cfg (encProCfg cfg.ledCode r) = r := by
  let s : State := { State.reset with cfg := cfg }
  have hs : s.cur = none := rfl
  obtain ⟨B, henc, hdec⟩ := proRecordsRoundTrip.2 r s s hr hled rfl hs hs
  have hB : Result.buffer (encProCfg cfg.ledCode r) = .buffer B :=
    returned_result ((exec_encProCfg hs r).symm.trans henc)
  obtain rfl := Result.buffer.inj hB
  rw [decProCfgReadsFields _ s (encProCfg_N _ r).ge hs] at hdec
  exact (Result.proConfig.inj (congrArg State.result (Host.Outcome.next.inj hdec))).1

section
variable {cfg cfg' : Config} {st : JoystickState} {r : ProConfig} {wait : Word} {s : State}

theorem sender_done_config (h : (senderOf cfg cfg' st r wait).Done s) (hled : cfg.ledCode.wf = true)
    (hcode : cfg'.ledCode = cfg.ledCode) (hr : validProConfig r = true) : s.outProCfg = r := by
  obtain ⟨buf, hbuf, hrec⟩ := h.record
  have hbits : ∀ i < 19, rawBit buf i = rawBit (encProCfg cfg.ledCode r) i := by
    intro i hi
    have hbit : rawBit buf (57 + i - 57) = pollLevel (encProCfg cfg'.ledCode r) (57 + i) :=
      hbuf (57 + i) (Nat.le_add_right _ _) (Nat.add_lt_add_left hi 57) (by omega : 6 * (57 + i) + 3 < 456)
    rwa [pollLevel, if_pos (by omega), hcode, Nat.add_sub_cancel_left] at hbit
  calc s.outProCfg = proConfigOf cfg buf := hrec
    _ = proConfigOf cfg (encProCfg cfg.ledCode r) := proConfigOf_congr cfg hbits
    _ = r := proConfigOf_encProCfg cfg hled hr

theorem poller_done_state (h : (pollerOf cfg st r wait).Done s) (hst : validProState st = true) : s.outState = st := by
  obtain ⟨buf, hbuf, hrec⟩ := h.record
  have hbits : ∀ i < 56, rawBit buf i = rawBit (encProState st) i := by
    intro i hi
    have hbit : rawBit buf i = sendLevel (encProState st) i :=
      hbuf i (Nat.zero_le _) (by omega : i < 0 + 56) (by omega : 6 * i + 1 < 456)
    rwa [sendLevel, if_pos (by omega)] at hbit
  calc s.outState = proStateOf cfg buf := hrec
    _ = proStateOf cfg (encProState st) := proStateOf_congr cfg hbits
    _ = st := proStateOf_encProState cfg hst

end

/-! ## From the start of the frame -/

section
variable {l : Link}

/-- The parts of the two sides of a loopback, whose records are those in HOST's operands. -/
def Link.sender (l : Link) : Part := senderOf l.a.cfg l.b.cfg l.a.args.stateRec l.b.args.proCfg l.a.args.waitMicros
def Link.poller (l : Link) : Part := pollerOf l.b.cfg l.a.args.stateRec l.b.args.proCfg l.b.args.waitMicros

theorem pro_pair (ha : isInstance l.a.cfg .pro .throttleClient = true)
    (hb : isInstance l.b.cfg .pro .joystickClient = true) : Pair inStep l.sender l.poller :=
  ⟨sendPart_lawful _ _ _ _ ha, pollPart_lawful _ _ _ _ hb, sender_paced _ _ _ _ _ _, poller_paced _ _ _ _ _ _⟩

/-- Side by side, what it means that a loopback is ready for a frame. -/
theorem Link.ready_iff (l : Link) : l.ready = true ↔
    (l.a.inv = true ∧ l.a.atRest = true ∧ l.a.setupDone = true ∧ outputsIdle l.a = true ∧ l.a.edgePending = 0) ∧
      (l.b.inv = true ∧ l.b.atRest = true ∧ l.b.setupDone = true ∧ outputsIdle l.b = true ∧ l.b.edgePending = 0) ∧
      l.configured = true ∧ l.wired = true := by
  simp only [Link.ready, Bool.and_eq_true, decide_eq_true_eq]
  tauto

theorem Link.wired_iff (l : Link) : l.wired = true ↔
    l.a.wCtlIn = l.b.outCtl ∧ l.a.wDataIn = l.b.outData ∧ l.b.wCtlIn = l.a.outCtl ∧ l.b.wDataIn = l.a.outData := by
  simp [Link.wired, and_assoc]

/-- A side at rest after its Setup is a station with its clock line at 0. -/
theorem station_of_rest {p : Part} {s : State} {r : Role} (hinst : isInstance s.cfg .pro r = true)
    (hinv : s.inv = true) (hcfg : s.cfg = p.cfg) (hwf : s.cfg.wf = true)
    (hcall : decode (.op p.code s.args) = .ok p.op) (hdone : s.setupDone = true) (hrest : s.atRest = true)
    (hidle : outputsIdle s = true) : Station p s ∧ s.cur = none ∧ s.outCtl = false := by
  obtain ⟨hcur, -, -, -⟩ := (atRest_iff s).mp hrest
  obtain ⟨hlow, -⟩ := (outputsIdle_iff s).mp hidle
  obtain ⟨-, -, hplace, -, -⟩ := (State.inv_iff s).mp hinv
  obtain ⟨-, hrests⟩ := atRest_of_placeOk hplace hcur
  obtain ⟨hdirs, -, -⟩ := (restsIdle_iff s).mp hrests hdone
  exact ⟨⟨hinv, hcfg, hwf, hcall, hdone, hdirs⟩, hcur, hlow.trans (idleCtl_pro hinst)⟩

theorem linked_of_ready (h : l.ready = true) (ha : isInstance l.a.cfg .pro .throttleClient = true)
    (hb : isInstance l.b.cfg .pro .joystickClient = true) :
    Linked inStep l.sender l.poller False False l.a l.b := by
  obtain ⟨⟨hinv, hrest, hdone, hidle, -⟩, ⟨hinv', hrest', hdone', hidle', -⟩, hcfg, hwired⟩ := l.ready_iff.mp h
  obtain ⟨hctlIn, hdataIn, hctlOut, hdataOut⟩ := l.wired_iff.mp hwired
  simp only [Link.configured, Bool.and_eq_true] at hcfg
  obtain ⟨⟨⟨hwf, hwf'⟩, -⟩, -⟩ := hcfg
  obtain ⟨hst, hcur, hlow⟩ := station_of_rest (p := l.sender) ha hinv rfl hwf (decode_of_decodeOp rfl rfl) hdone
    hrest hidle
  obtain ⟨hst', hcur', hlow'⟩ := station_of_rest (p := l.poller) hb hinv' rfl hwf' (decode_of_decodeOp rfl rfl) hdone'
    hrest' hidle'
  exact ⟨hst, hst', hctlIn, hdataIn, hctlOut, hdataOut, 0, 0, .idle id rfl hcur hlow, .idle id rfl hcur' hlow',
    by simp [inStep]⟩

end

/-- Settles O57: the run keeps track of the two sides, and where both have returned 0 both are done. -/
theorem proLoopbackAgrees : Obligations.ProLoopbackAgrees := by
  intro l m es hready ha hb hcode hst hr hcalls hrun hcur hcur' hzero hzero'
  have hpair := pro_pair ha hb
  have hboth : (callsOf es).Nodup ∧ (∀ e ∈ callsOf es, e = .onA (.issue 0x53) ∨ e = .onB (.issue 0x52)) ∧
      .onA (.issue 0x53) ∈ callsOf es ∧ .onB (.issue 0x52) ∈ callsOf es := by
    rcases hcalls with h | h <;> simp [h]
  obtain ⟨honce, honly, hinA, hinB⟩ := hboth
  have hlinked := linked_of_ready hready ha hb
  have htrack : Track inStep l.sender l.poller (.onA (.issue l.sender.code) ∉ callsOf es)
      (.onB (.issue l.poller.code) ∉ callsOf es) l.a l.b := by
    have hno : (.onA (.issue l.sender.code) ∉ callsOf es) = False := eq_false (not_not.mpr hinA)
    have hno' : (.onB (.issue l.poller.code) ∉ callsOf es) = False := eq_false (not_not.mpr hinB)
    rw [hno, hno']
    exact .inr (.inr hlinked)
  obtain ⟨hdone, hdone', hend⟩ := (htrack.linkTurns hpair honce honly hrun).done hcur hcur' hzero hzero'
  have hled : l.a.cfg.ledCode.wf = true := by
    have hwf := hlinked.here.wf
    simp only [Config.wf, Bool.and_eq_true] at hwf
    obtain ⟨⟨-, hled⟩, -⟩ := hwf
    exact hled
  exact ⟨poller_done_state hdone' hst, sender_done_config hdone hled hcode hr, hdone.clock, hdone.data, hdone'.clock,
    hdone'.data, m.wired_iff.mpr ⟨hend.ctlIn, hend.dataIn, hend.ctlOut, hend.dataOut⟩⟩

end Sys2Proof.Machine
end

section
/-! Two Pro engines on a loopback can complete (O58): with ENGINE's turns taken by whichever side can go on, both reach
DONE, and each label has made its one call. -/

namespace Sys2Proof.Machine
open Sys2Proof.Claims

/-! ## Counting a frame's calls -/

/-- How many labels `l` are behind position `n`. -/
def passed (n l : Nat) : Nat := (n + 5 - l) / 6

/-- The counts of rule R189 at position `n`, after `c` clock reads. -/
def Part.tally (p : Part) (n c : Nat) : List Nat :=
  [passed n p.drives, passed n p.rises + passed n p.falls, passed n p.hears + passed n p.misses, passed n p.samples, c]

/-- The clock reads behind position `n`: the outer deadline, and past cycle 0 the frame deadline (rule R185). -/
def clockReads (n : Nat) : Nat := if n < 6 then 1 else 2

theorem frameCalls_cons (c : PrimCall) (cs : List PrimCall) :
    frameCalls (c :: cs) = List.zipWith (· + ·) (frameCalls [c]) (frameCalls cs) := by
  simp only [frameCalls, List.countP_cons, List.countP_nil, List.zipWith_cons_cons, List.zipWith_nil_left,
    Nat.zero_add, Nat.add_comm]

theorem passed_succ {l : Nat} (hl : l < 6) (n : Nat) :
    passed (n + 1) l = (if n % 6 = l then 1 else 0) + passed n l := by
  unfold passed
  split <;> omega

section
variable {p q : Part} {n m c : Nat} {s t u : State} {cs : List PrimCall} {x : PrimCall} {R : Nat → Nat → Prop}

theorem Part.Ordered.rises_lt (hp : p.Ordered) : p.rises < 6 := hp.clock.trans hp.falls

theorem frameCalls_label (hp : p.Ordered) (h : frameCalls cs = p.tally n c) (hx : frameCalls [x] = p.share (n % 6)) :
    frameCalls (x :: cs) = p.tally (n + 1) c := by
  rw [frameCalls_cons, h, hx]
  simp only [Part.share, Part.tally, List.zipWith_cons_cons, List.zipWith_nil_left, passed_succ hp.drives,
    passed_succ hp.rises_lt, passed_succ hp.falls, passed_succ hp.hears, passed_succ hp.misses, passed_succ hp.samples,
    Nat.add_add_add_comm, Nat.zero_add]

theorem frameCalls_clock {v : Word} (h : frameCalls cs = p.tally n c) :
    frameCalls (.clockRead v :: cs) = p.tally n (1 + c) := by
  rw [frameCalls_cons, h]
  simp [frameCalls, Part.tally]

/-- The side runs at position `n`, its next call comes at once, and no label has made more than its one call. -/
structure Part.Tight (p : Part) (n : Nat) (s : State) : Prop where
  place : p.At n s
  ready : p.Ready s
  calls : frameCalls s.calls = p.tally n (clockReads n)
  length : s.calls.length = n + clockReads n

theorem Part.Tight.connect (h : q.Tight m u) (ht : dirsSet t = true) : q.Tight m (connect t u) := by
  refine ⟨(connect_aside t u).part_at h.place, ?_, ?_, ?_⟩ <;> rw [connect_eq ht]
  · exact h.ready
  · exact h.calls
  · exact h.length

/-! ## Whoever can go on does -/

/-- One turn of ENGINE at either side. -/
inductive Moves : Link → Link → Prop where
  | here {l : Link} {t : State} (h : turn .engine l.a = .next t) : Moves l ⟨t, connect t l.b⟩
  | there {l : Link} {t : State} (h : turn .engine l.b = .next t) : Moves l ⟨connect t l.a, t⟩

def Link.swap (l : Link) : Link := ⟨l.b, l.a⟩

theorem Moves.swap {l l' : Link} (h : Moves l l') : Moves l.swap l'.swap := by
  cases h with
  | here h => exact .there (l := l.swap) h
  | there h => exact .here (l := l.swap) h

/-- Both sides run, in step, without a wait in vain. -/
structure Locked (R : Nat → Nat → Prop) (p q : Part) (n m : Nat) (s u : State) : Prop where
  linked : Linked R p q True True s u
  here : p.Tight n s
  there : q.Tight m u
  rel : R n m

theorem Locked.symm (h : Locked R p q n m s u) : Locked (flip R) q p m n u s :=
  ⟨h.linked.symm, h.there, h.here, h.rel⟩

/-- A step of a side that runs, after which it is still in step. -/
theorem Linked.move_running {k : Nat} (h : Linked R p q True True s u) (hp : p.Lawful) (hs : p.At n s)
    (hu : q.Tight m u) (hstep : exec p.op s = .next t) (ht : p.At k t) (hR : R k m) :
    Moves ⟨s, u⟩ ⟨t, connect t u⟩ ∧ Linked R p q True True t (connect t u) ∧ q.Tight m (connect t u) := by
  have hst := h.here.exec hp.frame (.inr hs.cur) hstep
  have w := exec_wrote hstep
  exact ⟨.here (l := ⟨s, u⟩) ((engineTurn_of_cur hs.cur).trans hstep),
    h.move hst w.wCtlIn w.wDataIn ⟨k, m, .runs trivial ht, .runs trivial hu.place, hR⟩, hu.connect hst.dirs⟩

open Relation (ReflTransGen)

/-- A side whose wait the wires end goes on to the next position, past the frame deadline if it is there. -/
theorem Locked.advance (hp : p.Lawful) (hpace : Paced p q R) (h : Locked R p q n m s u) (hn : n < 456)
    (hhears : n % 6 = p.hears → q.high m = true) (hmisses : n % 6 = p.misses → q.high m = false) :
    ∃ t u', ReflTransGen Moves ⟨s, u⟩ ⟨t, u'⟩ ∧ Locked R p q (n + 1) m t u' := by
  obtain ⟨hlinked, hs, hu, hR⟩ := h
  have hwire : s.wCtlIn = q.high m := hlinked.ctlIn.trans hu.place.clock
  have hdata (hl : n % 6 = p.samples) : s.wDataIn = p.heard (n / 6) := by
    obtain ⟨hdrives, hcycle⟩ := hpace.sample hR hl
    rw [hlinked.dataIn, hu.place.data hdrives, hcycle, hpace.level]
  obtain ⟨t, hstep, hadv⟩ := hp.advances hlinked.here hs.place hs.ready hn (fun hl => hwire.trans (hhears hl))
    (fun hl => hwire.trans (hmisses hl)) hdata
  obtain ⟨x, hcalls, hshare⟩ := hadv.called
  have hR' := hpace.go hR hn hhears hmisses
  have hcount : frameCalls t.calls = p.tally (n + 1) (clockReads n) := by
    rw [hcalls]
    exact frameCalls_label hp.ordered hs.calls hshare
  have hlength : t.calls.length = n + 1 + clockReads n := by
    rw [hcalls, List.length_cons, hs.length]
    omega
  obtain ⟨hmove, hlinked', hu'⟩ := hlinked.move_running hp hs.place hu hstep hadv.at_succ hR'
  rcases hadv.enters with ⟨hne, hsub⟩ | ⟨rfl, hsub⟩
  · have hreads : clockReads (n + 1) = clockReads n := by
      unfold clockReads
      split <;> split <;> omega
    exact ⟨t, _, .single hmove, hlinked', ⟨hadv.at_succ, ⟨hadv.noDelay, hsub⟩, hreads ▸ hcount, hreads ▸ hlength⟩, hu',
      hR'⟩
  · obtain ⟨t', hstep', hat', hready', hcalls'⟩ := hp.deadline hlinked'.here hadv.at_succ hadv.noDelay hsub
    obtain ⟨hmove', hlinked'', hu''⟩ := hlinked'.move_running hp hadv.at_succ hu' hstep' hat' hR'
    refine ⟨t', _, .head hmove (.single hmove'), hlinked'', ⟨hat', hready', ?_, ?_⟩, hu'', hR'⟩
    · rw [hcalls']
      exact frameCalls_clock hcount
    · rw [hcalls', List.length_cons, hlength]
      rfl

/-- Until both are at DONE, one of the two can go on. -/
theorem inStep_progress (h : inStep n m) (hn : n ≤ 456) (hm : m ≤ 456) (hne : n + m ≠ 912) :
    (n < 456 ∧ (n % 6 = 2 → 3 < m % 6 ∧ m % 6 ≤ 5) ∧ (n % 6 = 5 → ¬(3 < m % 6 ∧ m % 6 ≤ 5))) ∨
      (m < 456 ∧ (m % 6 = 0 → 1 < n % 6 ∧ n % 6 ≤ 4) ∧ (m % 6 = 4 → ¬(1 < n % 6 ∧ n % 6 ≤ 4))) := by
  unfold inStep at h
  omega

end

theorem reaches_swap {l l' : Link} (h : Relation.ReflTransGen Moves l l') :
    Relation.ReflTransGen Moves l.swap l'.swap :=
  h.lift Link.swap fun _ _ => Moves.swap

section
variable {l : Link} {n m : Nat} {s u : State}

theorem reaches_done (hpair : Pair inStep l.sender l.poller) {left : Nat} (hleft : n + m + left = 912)
    (hn : n ≤ 456) (hm : m ≤ 456) (h : Locked inStep l.sender l.poller n m s u) :
    ∃ s' u', Relation.ReflTransGen Moves ⟨s, u⟩ ⟨s', u'⟩ ∧ Locked inStep l.sender l.poller 456 456 s' u' := by
  induction left generalizing n m s u with
  | zero =>
    obtain ⟨rfl, rfl⟩ : n = 456 ∧ m = 456 := by omega
    exact ⟨s, u, .refl, h⟩
  | succ left ih =>
    rcases inStep_progress h.rel hn hm (by omega) with ⟨hlt, hhears, hmisses⟩ | ⟨hlt, hhears, hmisses⟩
    · obtain ⟨t, u', hgo, hlocked⟩ := h.advance hpair.here hpair.paced hlt
        (fun hl => Part.high_eq_true.mpr (hhears hl)) fun hl => Part.high_eq_false.mpr (hmisses hl)
      obtain ⟨s', u'', hrest, hend⟩ := ih (by omega) (by omega) hm hlocked
      exact ⟨s', u'', hgo.trans hrest, hend⟩
    · obtain ⟨t, s', hgo, hlocked⟩ := h.symm.advance hpair.there hpair.pacedBack hlt
        (fun hl => Part.high_eq_true.mpr (hhears hl)) fun hl => Part.high_eq_false.mpr (hmisses hl)
      obtain ⟨s'', u', hrest, hend⟩ := ih (by omega) hn (by omega) hlocked.symm
      exact ⟨s'', u', (reaches_swap hgo).trans hrest, hend⟩

/-! ## The whole run -/

/-- The side has returned 0 with the five counts of rule R189 and no other call. -/
structure Returned (s : State) : Prop where
  cur : s.cur = none
  result : s.result = .code 0
  calls : frameCalls s.calls = [77, 152, 152, 76, 2]
  length : s.calls.length = 459

theorem Returned.connect {t u : State} (h : Returned u) : Returned (connect t u) := by
  rw [connect_aside t u]
  exact ⟨h.cur, h.result, h.calls, h.length⟩

theorem passed_last {l : Nat} (hl : l < 6) : passed 456 l = 76 := by
  unfold passed
  omega

/-- DONE makes the last call, and returns. -/
theorem Part.Tight.returns {p : Part} (hp : p.Lawful) (hst : Station p s) (h : p.Tight 456 s) :
    ∃ t, turn .engine s = .next t ∧ Station p t ∧ Returned t := by
  obtain ⟨hdelay, -⟩ := h.ready
  obtain ⟨t, hstep, hdone, hcalls⟩ := hp.ends hst h.place hdelay
  have hord := hp.ordered
  refine ⟨t, (engineTurn_of_cur h.place.cur).trans hstep, hst.exec hp.frame (.inr h.place.cur) hstep, hdone.cur,
    hdone.result, ?_, ?_⟩
  · rw [hcalls, frameCalls_cons, h.calls]
    simp only [Part.tally, passed_last hord.drives, passed_last hord.rises_lt, passed_last hord.falls,
      passed_last hord.hears, passed_last hord.misses, passed_last hord.samples]
    rfl
  · rw [hcalls, List.length_cons, h.length]
    rfl

theorem Part.Tight.starts {p : Part} (hp : p.Ordered) {v : Word} (hat : p.At 0 s) (hready : p.Ready s)
    (hcalls : s.calls = [.clockRead v]) : p.Tight 0 s := by
  refine ⟨hat, hready, ?_, by rw [hcalls]; rfl⟩
  have hnone {l : Nat} (hl : l < 6) : passed 0 l = 0 := by
    unfold passed
    omega
  simp only [hcalls, Part.tally, hnone hp.drives, hnone hp.rises_lt, hnone hp.falls, hnone hp.hears, hnone hp.misses,
    hnone hp.samples]
  rfl

theorem linkTurn_of_turn_a {e : Event} {t : State} (he : isOwnEvent e = true) (h : turn e l.a = .next t) :
    linkTurn (.onA e) l = some ⟨t, connect t l.b⟩ := by
  simp only [linkTurn, he, h, if_true]

theorem linkTurn_of_turn_b {e : Event} {t : State} (he : isOwnEvent e = true) (h : turn e l.b = .next t) :
    linkTurn (.onB e) l = some ⟨connect t l.a, t⟩ := by
  simp only [linkTurn, he, h, if_true]

theorem linkTurns_of_turn {e : LinkEvent} {es : List LinkEvent} {l l' : Link} (h : linkTurn e l = some l') :
    linkTurns (e :: es) l = linkTurns es l' := by
  simp only [linkTurns, h]

theorem Moves.linkTurn {l l' : Link} (h : Moves l l') : ∃ e, isBackground e = true ∧ linkTurn e l = some l' := by
  cases h with
  | here h => exact ⟨.onA .engine, rfl, linkTurn_of_turn_a rfl h⟩
  | there h => exact ⟨.onB .engine, rfl, linkTurn_of_turn_b rfl h⟩

/-- A run of ENGINE's turns is a run of the loopback without a call. -/
theorem linkTurns_of_moves {l l' : Link} (h : Relation.ReflTransGen Moves l l') :
    ∃ es, callsOf es = [] ∧ linkTurns es l = some l' := by
  induction h using Relation.ReflTransGen.head_induction_on with
  | refl => exact ⟨[], rfl, rfl⟩
  | head hmove _ ih =>
    obtain ⟨es, hcalls, hrun⟩ := ih
    obtain ⟨e, he, hturn⟩ := hmove.linkTurn
    refine ⟨e :: es, ?_, (linkTurns_of_turn hturn).trans hrun⟩
    exact (callsOf_background he es).trans hcalls

/-- From DONE on both sides, a turn of each returns. -/
theorem Locked.returns {R : Nat → Nat → Prop} {p q : Part} (hpair : Pair R p q) (h : Locked R p q 456 456 s u) :
    ∃ s' u', Relation.ReflTransGen Moves ⟨s, u⟩ ⟨s', u'⟩ ∧ Returned s' ∧ Returned u' := by
  obtain ⟨hlinked, hs, hu, -⟩ := h
  obtain ⟨t, hturn, hst, hret⟩ := hs.returns hpair.here hlinked.here
  have hst' := hlinked.there.aside (connect_inv hst.dirs hlinked.there.inv) (connect_aside t u)
  obtain ⟨t', hturn', -, hret'⟩ := (hu.connect hst.dirs).returns hpair.there hst'
  exact ⟨_, t', .head (.here (l := ⟨s, u⟩) hturn) (.single (.there hturn')), hret.connect, hret'⟩

/-- From a ready pair, the two calls lead to the first label on both sides. -/
theorem locked_of_calls (hpair : Pair inStep l.sender l.poller)
    (h : Linked inStep l.sender l.poller False False l.a l.b) :
    ∃ l₁ l₂, linkTurn (.onB (.issue 0x52)) l = some l₁ ∧ linkTurn (.onA (.issue 0x53)) l₁ = some l₂ ∧
      Locked inStep l.sender l.poller 0 0 l₂.a l₂.b := by
  obtain ⟨t, hturn, hlinked, hat, hready, hcalls⟩ := h.symm.issue hpair.there id
  obtain ⟨t', hturn', hlinked', hat', hready', hcalls'⟩ := hlinked.symm.issue hpair.here id
  have htight := Part.Tight.starts hpair.there.ordered hat hready hcalls
  have htight' := Part.Tight.starts hpair.here.ordered hat' hready' hcalls'
  exact ⟨⟨connect t l.a, t⟩, ⟨t', connect t' t⟩, linkTurn_of_turn_b rfl hturn, linkTurn_of_turn_a rfl hturn', hlinked',
    htight', htight.connect hlinked'.here.dirs, by simp [inStep]⟩

end

/-- Settles O58: the two calls, then turns of ENGINE at whichever side can go on, to DONE and the return on both. -/
theorem proLoopbackCanComplete : Obligations.ProLoopbackCanComplete := by
  intro l hready ha hb
  have hpair := pro_pair ha hb
  obtain ⟨l₁, l₂, hpoll, hsend, hlocked⟩ := locked_of_calls hpair (linked_of_ready hready ha hb)
  obtain ⟨s, u, hgo, hdone⟩ := reaches_done hpair (left := 912) rfl (by omega) (by omega) hlocked
  obtain ⟨s', u', hlast, hs, hu⟩ := hdone.returns hpair
  obtain ⟨es, hcalls, hrun⟩ := linkTurns_of_moves (hgo.trans hlast)
  refine ⟨.onB (.issue 0x52) :: .onA (.issue 0x53) :: es, ⟨s', u'⟩, ?_, ?_, hs.cur, hu.cur, hs.result, hu.result,
    hs.calls, hu.calls, hs.length, hu.length⟩
  · rw [callsOf_call rfl, callsOf_call rfl, hcalls]
  · exact (linkTurns_of_turn hpoll).trans ((linkTurns_of_turn hsend).trans hrun)

end Sys2Proof.Machine
end

section
/-! SETUP.STD (O33): both Setups make the same first six calls, each from the place the one before it left; with the
interrupt-counted waiter the JoystickClient's goes on to zero the counter and to attach the callback. -/

namespace Sys2Proof.Machine
open Sys2Proof.Claims

/-- The Setup of a Std engine (rules R203, R204). -/
def setupStd (role : Role) : Instr :=
  match role with
  | .joystickClient => .setupStdJc
  | .throttleClient => .setupStdTc

/-- The level a Std engine's CTL_OUT idles at (rule R35). -/
def stdIdle (role : Role) : Bool := decide (role = .throttleClient)

/-- Whether a Std engine's Setup arms the edge counter (rule R203). -/
def armsCounter (role : Role) (c : Config) : Bool :=
  decide (role = .joystickClient) && decide (c.waiter = .interruptCounted)

section
variable {role : Role} {s : State}

theorem exec_setupStd (role : Role) (s : State) : exec (setupStd role) s =
    running (setupRefusal .std role s) (setupStd role) s (setupStep .std (stdIdle role) (armsCounter role s.cfg)) := by
  cases role <;> rfl

theorem exec_setupStd_rest (hinst : isInstance s.cfg .std role = true) (hstrict : s.cfg.stdStrict = false)
    (hcur : s.cur = none) : exec (setupStd role) s =
      .next { s.started (setupStd role) .idle 0 (.seq 1) [.pinWrite .ctlOut (stdIdle role)] with
        outCtl := stdIdle role } := by
  rw [exec_setupStd, running_accepted hcur (setupRefusal_eq_none hinst fun _ => hstrict)]
  rfl

/-- A Setup that runs makes the next of its steps. -/
theorem execSteps_setupStd {n : Nat} {t : State} (hcur : s.cur = some (setupStd role)) (hdelay : s.delayLeft = 0)
    (h : setupStep .std (stdIdle role) (armsCounter role s.cfg) s = .next t) :
    execSteps (setupStd role) (n + 1) s = execSteps (setupStd role) n t := by
  refine execSteps_of_next ?_
  rw [exec_setupStd, running_on hcur hdelay, h]

/-- A Setup before its sixth call: both outputs are driven at idle, and CTL_IN is an input (rules R203, R204). -/
def drivenIdle (role : Role) (s : State) : State :=
  { s.started (setupStd role) .idle 0 (.seq 5)
      [.pinMode (.inp .ctlIn) .input, .pinMode (.out .dataOut) .output, .pinWrite .dataOut false,
        .pinMode (.out .ctlOut) .output, .pinWrite .ctlOut (stdIdle role)] with
    outCtl := stdIdle role, outData := false, dirCtlOut := .output, dirDataOut := .output, dirCtlIn := .input }

theorem execSteps_setupStd_rest (hinst : isInstance s.cfg .std role = true) (hstrict : s.cfg.stdStrict = false)
    (hcur : s.cur = none) (n : Nat) :
    execSteps (setupStd role) (n + 5) s = execSteps (setupStd role) n (drivenIdle role s) := by
  rw [execSteps_of_next (exec_setupStd_rest hinst hstrict hcur), execSteps_setupStd rfl rfl rfl,
    execSteps_setupStd rfl rfl rfl, execSteps_setupStd rfl rfl rfl, execSteps_setupStd rfl rfl rfl]
  rfl

/-- A Setup that arms no counter returns with its sixth call. -/
theorem execSteps_drivenIdle_plain (h : armsCounter role s.cfg = false) :
    execSteps (setupStd role) 1 (drivenIdle role s) =
      .next (setupEnds .std (pinMode (.inp .dataIn) .input (drivenIdle role s))) := by
  refine execSteps_setupStd rfl rfl ?_
  show setupStep .std (stdIdle role) (armsCounter role s.cfg) (drivenIdle role s) = _
  rw [h]
  rfl

/-- A Setup that arms the counter, after its sixth call. -/
def inputsSet (role : Role) (s : State) : State :=
  { pinMode (.inp .dataIn) .input (drivenIdle role s) with sub := .seq 6 }

theorem execSteps_drivenIdle_armed (h : armsCounter role s.cfg = true) (n : Nat) :
    execSteps (setupStd role) (n + 1) (drivenIdle role s) = execSteps (setupStd role) n (inputsSet role s) := by
  refine execSteps_setupStd rfl rfl ?_
  show setupStep .std (stdIdle role) (armsCounter role s.cfg) (drivenIdle role s) = _
  rw [h]
  rfl

/-- The counter and the pending edges are zeroed; a callback that is attached stays as it is (decision D36). -/
theorem execSteps_inputsSet_again (h : armsCounter role s.cfg = true) (hattached : s.attached = true) :
    execSteps (setupStd role) 1 (inputsSet role s) =
      .next (setupEnds .std { inputsSet role s with edgeCnt := 0, edgePending := 0 }) := by
  refine execSteps_setupStd rfl rfl ?_
  show setupStep .std (stdIdle role) (armsCounter role s.cfg) (inputsSet role s) = _
  rw [h]
  exact if_pos hattached

/-- The first Setup attaches the callback with its last call. -/
theorem execSteps_inputsSet_first (h : armsCounter role s.cfg = true) (hattached : s.attached = false) :
    execSteps (setupStd role) 2 (inputsSet role s) =
      .next (setupEnds .std (attachFalling
        { inputsSet role s with edgeCnt := 0, edgePending := 0, sub := .seq 7 })) := by
  refine (execSteps_setupStd (t := { inputsSet role s with edgeCnt := 0, edgePending := 0, sub := .seq 7 }) rfl rfl
    ?_).trans (execSteps_setupStd rfl rfl ?_)
  · show setupStep .std (stdIdle role) (armsCounter role s.cfg) (inputsSet role s) = _
    rw [h]
    exact if_neg (by simpa [inputsSet, drivenIdle, State.started] using hattached)
  · show setupStep .std (stdIdle role) (armsCounter role s.cfg) _ = _
    rw [h]
    rfl

end

/-- Settles O33: from the place before the sixth call, the Setup ends at once, after the counter is zeroed, or after
the callback is attached too. -/
theorem setupStdDrivesIdleLevels : Obligations.SetupStdDrivesIdleLevels := by
  intro s hcur hstrict
  have plain {role : Role} (hinst : isInstance s.cfg .std role = true) (h : armsCounter role s.cfg = false) :
      execSteps (setupStd role) 6 s = _ :=
    (execSteps_setupStd_rest hinst hstrict hcur 1).trans (execSteps_drivenIdle_plain h)
  have armed (hinst : isInstance s.cfg .std .joystickClient = true)
      (h : armsCounter .joystickClient s.cfg = true) (n : Nat) :
      execSteps (setupStd .joystickClient) (n + 6) s = _ :=
    (execSteps_setupStd_rest hinst hstrict hcur (n + 1)).trans (execSteps_drivenIdle_armed h n)
  refine ⟨fun hinst => ⟨exec_setupStd_rest (role := .throttleClient) hinst hstrict hcur, plain hinst rfl⟩,
    fun hinst => exec_setupStd_rest (role := .joystickClient) hinst hstrict hcur,
    fun hinst hw => plain hinst (by simp [armsCounter, hw]), fun hinst hw hfirst => ?first,
    fun hinst hw hagain => ?again⟩
  case first =>
    have harms : armsCounter .joystickClient s.cfg = true := by simp [armsCounter, hw]
    exact (armed hinst harms 2).trans (execSteps_inputsSet_first harms hfirst)
  case again =>
    have harms : armsCounter .joystickClient s.cfg = true := by simp [armsCounter, hw]
    refine (armed hinst harms 1).trans ((execSteps_inputsSet_again harms hagain).trans ?_)
    rfl

end Sys2Proof.Machine
end

section
/-! SEND.STD and POLL.STD, label by label (O38, O39): as in the Pro engine the place of a running operation says which
label's step it makes next, and each label's step is an equation. -/

namespace Sys2Proof.Machine
open Sys2Proof.Claims

/-! ## The shared waits as the statements name them -/

/-- A place at which the step is `WaitPin(CTL_IN, v, DL)` has the six equations of such a wait, wherever in its phase
the wait stands (rules R162, R163). -/
theorem waitsFor_of_waitStep_at {v : Bool} {i : Instr} {p : Phase} {place : WaitPos → Sub} {onward : State → State}
    {f : FrameFailure} {reached isExpired : State → Out} {s : State}
    (hstep : ∀ pos, s.standsAt i p (place pos) → exec i s = waitStep .ctlIn v s.dl pos place reached isExpired s)
    (hreached : s.phase = p → ∀ c, reached (s.called c) = .next (onward (s.called c)))
    (hexpired : ∀ c, isExpired (s.called c) = .next (fails f (s.called c))) :
    waitsFor v i p place onward f s := by
  refine ⟨fun hat hv => ?there, fun hat hv => ?other, fun hat hexp => ?expired, fun hat hexp hbusy => ?spin,
    fun hat hexp hbusy => ?rest, fun hat => ?sleep⟩
  case there =>
    have ⟨_, _, hph, _⟩ := hat
    rw [hstep _ hat, waitStep_read_of_level (p := .ctlIn) hv, hreached hph]
  case other => rw [hstep _ hat, waitStep_read_of_other (p := .ctlIn) hv]
  case expired =>
    rw [hstep _ hat, waitStep_test_of_expired hexp, hexpired]
    rfl
  case spin => rw [hstep _ hat, waitStep_test_of_not_expired hexp, hbusy, if_pos rfl]
  case rest => rw [hstep _ hat, waitStep_test_of_not_expired hexp, hbusy, if_neg Bool.false_ne_true]
  case sleep => rw [hstep _ hat, waitStep_sleep]

/-! ## SEND.STD -/

section
variable {st : JoystickState} {wait : Word} {s : State}

theorem exec_sendStd_rest (hcur : s.cur = none) (hinst : isInstance s.cfg .std .throttleClient = true)
    (hstrict : s.cfg.stdStrict = false) (hdone : s.setupDone = true) :
    exec (.sendStd st wait) s = sendStdS0 st wait (launch (.sendStd st wait) s) := by
  rw [exec, execSendStd, running_accepted hcur (planeRefusal_eq_none hinst hdone fun _ => hstrict)]
  rfl

/-- While it runs, SEND.STD makes the step of its place (rule R202). -/
theorem exec_sendStd_at {p : Phase} {sub : Sub} {out : Out} (hat : s.standsAt (.sendStd st wait) p sub)
    (hstep : s.phase = p → s.sub = sub → sendStdStep st wait s = out) : exec (.sendStd st wait) s = out := by
  obtain ⟨hcur, hdelay, hph, hsub⟩ := hat
  rw [exec, execSendStd, running_on hcur hdelay, hstep hph hsub]

theorem sendStdStep_s1 {pos : WaitPos} (hph : s.phase = .s1) (hsub : s.sub = .first pos) :
    sendStdStep st wait s = sendStdS1 pos s := by
  simp only [sendStdStep, orAbort, hph, hsub]

theorem sendStdStep_deadline (hph : s.phase = .s1) (hsub : s.sub = .deadline) :
    sendStdStep st wait s = sendStdDeadline s := by
  simp only [sendStdStep, orAbort, hph, hsub]

/-- The prompts of the later data bits and of the config phase are one wait (rule R202). -/
theorem sendStdStep_prompt {pos : WaitPos} (hph : s.phase = .s3 ∨ s.phase = .s4) (hsub : s.sub = .first pos) :
    sendStdStep st wait s = sendStdPrompt pos s := by
  rcases hph with hph | hph <;> simp only [sendStdStep, orAbort, hph, hsub]

theorem sendStdStep_bit (hph : s.phase = .s2 ∨ s.phase = .s3) (hsub : s.sub = .seq 0) :
    sendStdStep st wait s = sendStdBit s := by
  rcases hph with hph | hph <;> simp only [sendStdStep, orAbort, hph, hsub]

theorem sendStdStep_configBit (hph : s.phase = .s4) (hsub : s.sub = .seq 0) :
    sendStdStep st wait s = .next { pinWrite .dataOut false s with sub := .seq 1 } := by
  simp only [sendStdStep, orAbort, hph, hsub]

/-- How long the pulse of a slot lasts: the confirmation, a data bit, the longer config pulse (rule R206). -/
def slotPulse (c : Config) (p : Phase) : Word :=
  match p with
  | .s2 => c.stdConfirmPulse
  | .s3 => c.stdBitPulse
  | _ => c.stdConfigPulse

/-- What follows a slot: the next prompt, or after the config pulse the config phase (rule R202). -/
def afterSlot (p : Phase) (s : State) : Out :=
  match p with
  | .s4 => .next (goto .s5 0 (.first .read) s)
  | _ => sendStdNextBit s

theorem sendStdStep_pulse {p : Phase} {n : Nat} (hph : s.phase = p) (hp : p = .s2 ∨ p = .s3 ∨ p = .s4)
    (hsub : s.sub = .seq (n + 1)) :
    sendStdStep st wait s = pulseOut (slotPulse s.cfg p) (n + 1) (afterSlot p) s := by
  rcases hp with rfl | rfl | rfl <;> simp only [sendStdStep, orAbort, hph, hsub] <;> rfl

theorem sendStdStep_s5 (hph : s.phase = .s5) (hsub : s.sub = .start ∨ ∃ pos, s.sub = .first pos ∨ s.sub = .second pos) :
    sendStdStep st wait s = sendStdS5 s.sub s := by
  rcases hsub with hsub | ⟨pos, hsub | hsub⟩ <;> simp only [sendStdStep, orAbort, hph, hsub]

theorem sendStdStep_s6 {pos : WaitPos} (hph : s.phase = .s6) (hsub : s.sub = .first pos) :
    sendStdStep st wait s = sendStdS6 pos s := by
  simp only [sendStdStep, orAbort, hph, hsub]

theorem sendStdStep_s7 (hph : s.phase = .s7) (hsub : s.sub = .start) : sendStdStep st wait s = sendStdS7 s := by
  simp only [sendStdStep, orAbort, hph, hsub]

/-! The steps of the labels that have cases. -/

theorem sendStdBit_eq (htx : s.txbuf.N = 64) (hcyc : s.cyc.toNat ≤ 63) : sendStdBit s =
    .next { pinWrite .dataOut (rawBit s.txbuf s.cyc.toNat) s with sub := .seq 1 } := by
  rw [sendStdBit, getBit_inRange (by omega), orRangeFault_ok, Int.toNat_natCast]

theorem sendStdNextBit_of_lt (h : s.cyc.toNat < 63) : sendStdNextBit s =
    .next (goto .s3 (s.cyc + 1) (.first .read) { s with req := !s.req }) := if_pos h

theorem sendStdNextBit_of_last (h : s.cyc.toNat = 63) : sendStdNextBit s =
    .next (goto .s4 s.cyc (.first .read) { s with req := !s.req }) := if_neg (by omega)

theorem sendStdS5_low (pos : WaitPos) (s : State) : sendStdS5 (.first pos) s =
    waitStep .ctlIn false s.dl pos .first (fun s => .next { s with sub := .second .read })
      (beginAbort .peerUnresponsive) s := rfl

theorem sendStdS5_high (pos : WaitPos) (s : State) : sendStdS5 (.second pos) s =
    waitStep .ctlIn true s.dl pos .second (fun s => .next { s with sub := .start })
      (beginAbort .peerUnresponsive) s := rfl

/-- The sample of a config bit. -/
theorem sendStdS5_sample (hrx : s.rxbuf.N = 8) (hcyc : s.cyc.toNat ≤ 7) : sendStdS5 .start s =
    .next (if s.cyc.toNat < 7 then
      goto .s5 (s.cyc + 1) (.first .read)
        { pinRead .dataIn s with rxbuf := rawPutBit s.rxbuf s.cyc.toNat s.wDataIn }
    else goto .s6 s.cyc (.first .read)
        { pinRead .dataIn s with rxbuf := rawPutBit s.rxbuf s.cyc.toNat s.wDataIn }) := by
  rw [sendStdS5, setBit_inRange _ (by omega), orRangeFault_ok, Int.toNat_natCast]
  split <;> rfl

theorem sendStdS7_eq (hrx : s.rxbuf.N = 8) : sendStdS7 s =
    .next (finishFrame (.stdConfig (stdConfigOf s.rxbuf)) (setOk true s)) := by
  rw [sendStdS7, decStdCfg_eq hrx.ge, orRangeFault_ok]

end

/-- Settles O39: at each label the operation's step is that label's equation; a wait is the shared `WaitPin`, and a
slot's pulse is the shared `Pulse`. -/
theorem sendStdFollowsItsLabels : Obligations.SendStdFollowsItsLabels := by
  rintro st wait s i rfl
  refine ⟨fun hcur hinst hstrict hdone => ?launch,
    waitsFor_of_waitStep_at (fun pos hat => exec_sendStd_at hat sendStdStep_s1) (fun _ c => rfl) (fun c => rfl),
    fun hat => ?deadline, fun p hp hat htx hcyc => ?bit, fun hat => ?configBit, fun p hp hat => ?drop,
    fun p n hpn hat => ?hold, fun p hp hat hcyc => ?nextBit, fun hat hcyc => ?lastBit,
    fun p hp => waitsFor_of_waitStep_at
      (fun pos hat => exec_sendStd_at hat fun hph hsub => sendStdStep_prompt (hph ▸ hp) hsub) (fun _ c => rfl)
      (fun c => rfl),
    fun hat => ?configPulseEnds,
    waitsFor_of_waitStep_at (fun pos hat => exec_sendStd_at hat fun hph hsub =>
      (sendStdStep_s5 hph (.inr ⟨pos, .inl hsub⟩)).trans (hsub ▸ sendStdS5_low pos s)) (fun _ c => rfl) (fun c => rfl),
    waitsFor_of_waitStep_at (fun pos hat => exec_sendStd_at hat fun hph hsub =>
      (sendStdStep_s5 hph (.inr ⟨pos, .inr hsub⟩)).trans (hsub ▸ sendStdS5_high pos s)) (fun _ c => rfl) (fun c => rfl),
    fun hat hrx hcyc => ?sample, fun hat hrx hcyc => ?lastSample,
    waitsFor_of_waitStep_at (fun pos hat => exec_sendStd_at hat sendStdStep_s6) (fun _ c => rfl) (fun c => rfl),
    fun hat hrx => ?done⟩
  case launch =>
    rw [exec_sendStd_rest hcur hinst hstrict hdone]
    rfl
  case deadline =>
    refine exec_sendStd_at hat fun hph hsub => ?_
    rw [sendStdStep_deadline hph hsub]
    rfl
  case bit =>
    refine exec_sendStd_at hat fun hph hsub => ?_
    rw [sendStdStep_bit (hph ▸ hp) hsub, sendStdBit_eq htx hcyc]
    rfl
  case configBit =>
    refine exec_sendStd_at hat fun hph hsub => ?_
    rw [sendStdStep_configBit hph hsub]
    rfl
  case drop =>
    refine exec_sendStd_at hat fun hph hsub => ?_
    rw [sendStdStep_pulse hph hp hsub]
    rfl
  case hold =>
    refine exec_sendStd_at hat fun hph hsub => ?_
    have hp : p = .s2 ∨ p = .s3 ∨ p = .s4 := by tauto
    have hn : n = slotPulse s.cfg p := by rcases hpn with ⟨rfl, rfl⟩ | ⟨rfl, rfl⟩ | ⟨rfl, rfl⟩ <;> rfl
    rw [sendStdStep_pulse hph hp hsub, hn]
    rfl
  case nextBit =>
    refine exec_sendStd_at hat fun hph hsub => ?_
    rw [sendStdStep_pulse hph (by tauto) hsub]
    rcases hp with rfl | rfl <;> exact sendStdNextBit_of_lt hcyc
  case lastBit =>
    refine exec_sendStd_at hat fun hph hsub => ?_
    rw [sendStdStep_pulse hph (by tauto) hsub]
    exact sendStdNextBit_of_last hcyc
  case configPulseEnds =>
    refine exec_sendStd_at hat fun hph hsub => ?_
    rw [sendStdStep_pulse hph (by tauto) hsub]
    rfl
  case sample =>
    refine exec_sendStd_at hat fun hph hsub => ?_
    rw [sendStdStep_s5 hph (.inl hsub), hsub, sendStdS5_sample hrx (by omega), if_pos hcyc, ← hph]
    rfl
  case lastSample =>
    refine exec_sendStd_at hat fun hph hsub => ?_
    rw [sendStdStep_s5 hph (.inl hsub), hsub, sendStdS5_sample hrx (by omega), if_neg (by omega), hcyc]
    rfl
  case done =>
    refine exec_sendStd_at hat fun hph hsub => ?_
    rw [sendStdStep_s7 hph hsub, sendStdS7_eq hrx]
    rfl

/-! ## POLL.STD -/

section
variable {r : StdConfig} {wait : Word} {s : State}

theorem exec_pollStd_rest (hcur : s.cur = none) (hinst : isInstance s.cfg .std .joystickClient = true)
    (hstrict : s.cfg.stdStrict = false) (hdone : s.setupDone = true) :
    exec (.pollStd r wait) s = pollStdP0 r wait (launch (.pollStd r wait) s) := by
  rw [exec, execPollStd, running_accepted hcur (planeRefusal_eq_none hinst hdone fun _ => hstrict)]
  rfl

/-- While it runs, POLL.STD makes the step of its place (rule R201). -/
theorem exec_pollStd_at {p : Phase} {sub : Sub} {out : Out} (hat : s.standsAt (.pollStd r wait) p sub)
    (hstep : s.phase = p → s.sub = sub → pollStdStep r wait s = out) : exec (.pollStd r wait) s = out := by
  obtain ⟨hcur, hdelay, hph, hsub⟩ := hat
  rw [exec, execPollStd, running_on hcur hdelay, hstep hph hsub]

theorem pollStdStep_p1 {pos : WaitPos} (hph : s.phase = .p1) (hsub : s.sub = .first pos) :
    pollStdStep r wait s = pollStdP1 pos s := by
  simp only [pollStdStep, orAbort, hph, hsub]

theorem pollStdStep_deadline (hph : s.phase = .p2) (hsub : s.sub = .deadline) :
    pollStdStep r wait s = pollStdDeadline s := by
  simp only [pollStdStep, orAbort, hph, hsub]

theorem pollStdStep_sample (hph : s.phase = .p3 ∨ s.phase = .p4) (hsub : s.sub = .start) :
    pollStdStep r wait s = pollStdSample s := by
  rcases hph with hph | hph <;> simp only [pollStdStep, orAbort, hph, hsub]

/-- What follows the `WaitForPulse` of a phase (rule R201). -/
def afterPulse (p : Phase) : PulseResult → State → Out :=
  match p with
  | .p2 => pollStdP2Done
  | .p3 => pollStdP3Done
  | _ => pollStdP4Done

theorem pollStdStep_pulse {p : Phase} (hph : s.phase = p) (hp : p = .p2 ∨ p = .p3 ∨ p = .p4)
    (hsub : pulsePlace s.cfg.waiter s.sub = true) :
    pollStdStep r wait s = pulseStep s.cfg.waiter s.dl .toggleReq (afterPulse p) s := by
  cases hs : s.sub with
  | snapshot | trigger | first | second | count =>
    rcases hp with rfl | rfl | rfl <;> simp only [pollStdStep, orAbort, hph, hs, afterPulse]
  | _ =>
    rw [hs] at hsub
    cases hsub

theorem pollStdStep_p5 {pos : WaitPos} (hph : s.phase = .p5) (hsub : s.sub = .first pos) :
    pollStdStep r wait s = pollStdP5 pos s := by
  simp only [pollStdStep, orAbort, hph, hsub]

theorem pollStdStep_p6_start (hph : s.phase = .p6) (hsub : s.sub = .start) :
    pollStdStep r wait s = pollStdP6 0 s := by
  simp only [pollStdStep, orAbort, hph, hsub]

theorem pollStdStep_p6 {n : Nat} (hph : s.phase = .p6) (hsub : s.sub = .seq n) :
    pollStdStep r wait s = pollStdP6 n s := by
  simp only [pollStdStep, orAbort, hph, hsub]

theorem pollStdStep_p7_start (hph : s.phase = .p7) (hsub : s.sub = .start) :
    pollStdStep r wait s = pollStdP7 0 s := by
  simp only [pollStdStep, orAbort, hph, hsub]

theorem pollStdStep_p7 {n : Nat} (hph : s.phase = .p7) (hsub : s.sub = .seq n) :
    pollStdStep r wait s = pollStdP7 n s := by
  simp only [pollStdStep, orAbort, hph, hsub]

/-! The steps of the labels that have cases. -/

theorem pollStdSample_eq (hrx : s.rxbuf.N = 64) (hcyc : s.cyc.toNat ≤ 63) : pollStdSample s =
    .next { pinRead .dataIn s with
      rxbuf := rawPutBit s.rxbuf s.cyc.toNat s.wDataIn, sub := pulseEntry s.cfg.waiter } := by
  rw [pollStdSample, setBit_inRange _ (by omega), orRangeFault_ok, Int.toNat_natCast]

theorem pollStdP3Done_finished (hph : s.phase = .p3) : pollStdP3Done .finished s =
    .next (if s.cyc.toNat < 62 then { s with cyc := s.cyc + 1, sub := .start }
      else { s with phase := .p4, cyc := 63, sub := .start }) := by
  rw [pollStdP3Done]
  split
  · rw [goto, ← hph]
  · rfl

theorem pollStdP6_bit (htx : s.txbuf.N = 8) (hcyc : s.cyc.toNat ≤ 7) : pollStdP6 1 s =
    .next { pinWrite .dataOut (rawBit s.txbuf s.cyc.toNat) s with sub := .seq 2 } := by
  rw [pollStdP6, getBit_inRange (by omega), orRangeFault_ok, Int.toNat_natCast]

theorem pollStdP6_next (h : s.cyc.toNat < 7) : pollStdP6 4 s =
    .next (goto .p6 (s.cyc + 1) .start (delayUs s.cfg.stdCfgHigh s)) := if_pos h

theorem pollStdP6_last (h : s.cyc.toNat = 7) : pollStdP6 4 s =
    .next (goto .p7 s.cyc .start (delayUs s.cfg.stdCfgHigh s)) := if_neg (by omega)

/-- The checksum test comes last (rule R209). -/
theorem pollStdP7_ends (hrx : s.rxbuf.N = 64) : pollStdP7 1 s =
    .next (pollStdEnds (if rawByte s.rxbuf 7 = xorOfSeven s.rxbuf then some (stdStateOf s.cfg s.rxbuf) else none)
      (pinWrite .dataOut false s)) := by
  rw [pollStdP7, decStdState_eq (by omega), orRangeFault_ok]

/-- The entry of a `WaitForPulse` as the statements write it. -/
theorem pulseEntry_eq_ite (w : Waiter) : pulseEntry w = if w = .polling then .trigger else .snapshot := by
  cases w <;> rfl

end

/-- A phase at whose places the step is `WaitForPulse(DL, toggle of the request line)` has the equations of such a
wait at each of its places (rules R172 to R175). -/
theorem awaitsPulse_of_pulseStep {i : Instr} {p : Phase} {onward : PulseResult → State → State}
    {done : PulseResult → State → Out} {s : State}
    (hstep : ∀ sub, pulsePlace s.cfg.waiter sub = true → s.standsAt i p sub →
      exec i s = pulseStep s.cfg.waiter s.dl .toggleReq done s)
    (hdone : s.phase = p → ∀ res c, done res { s.called c with pwResult := res } =
      .next (onward res { s.called c with pwResult := res })) : awaitsPulse i p onward s := by
  have irq {sub : Sub} {out : Out} (hat : s.standsAt i p sub) (hw : s.cfg.waiter = .interruptCounted)
      (h : s.sub = sub → pulseStep .interruptCounted s.dl .toggleReq done s = out)
      (hsub : pulsePlace .interruptCounted sub = true := by rfl) : exec i s = out := by
    have ⟨_, _, _, hs⟩ := hat
    rw [hstep sub (hw ▸ hsub) hat, hw, h hs]
  have poll {sub : Sub} {out : Out} (hat : s.standsAt i p sub) (hw : s.cfg.waiter = .polling)
      (h : s.sub = sub → pulseStep .polling s.dl .toggleReq done s = out)
      (hsub : pulsePlace .polling sub = true := by rfl) : exec i s = out := by
    have ⟨_, _, _, hs⟩ := hat
    rw [hstep sub (hw ▸ hsub) hat, hw, h hs]
  have result {sub : Sub} : s.standsAt i p sub → _ := fun ⟨_, _, hph, _⟩ => hdone hph
  refine ⟨fun hat hw => irq hat hw pulseStep_snapshot, fun hat hw => irq hat hw pulseStep_trigger,
    fun hat hw hd => irq hat hw (pulseStep_count_of_no_edge hd),
    fun hat hw hd => (irq hat hw (pulseStep_count_of_one_edge hd)).trans (result hat _ _),
    fun hat hw hd => (irq hat hw (pulseStep_count_of_more_edges hd)).trans (result hat _ _), fun hat hw => ?countTest,
    fun hat hw hv => (irq hat hw (pulseStep_count_pin hv)).trans (result hat _ _),
    fun hat hw hv => (irq hat hw (pulseStep_count_pin hv)).trans (result hat _ _),
    fun hat hw => irq hat hw pulseStep_count_sleep, fun hat hw => poll hat hw pulseStep_trigger,
    fun hat hw => poll hat hw pulseStep_first_read,
    fun hat hw hexp => (poll hat hw (pulseStep_first_test_of_expired hexp)).trans (result hat _ _),
    fun hat hw hexp => (poll hat hw (pulseStep_first_test_of_not_expired hexp)).trans ?firstLive,
    fun hat hw hv => (poll hat hw (pulseStep_second_read_of_idle hv)).trans (result hat _ _),
    fun hat hw hv => poll hat hw (pulseStep_second_read_of_active hv),
    fun hat hw hexp => (poll hat hw (pulseStep_second_test_of_expired hexp)).trans (result hat _ _),
    fun hat hw hexp => (poll hat hw (pulseStep_second_test_of_not_expired hexp)).trans ?secondLive,
    fun hat hw => poll hat hw pulseStep_first_sleep, fun hat hw => poll hat hw pulseStep_second_sleep⟩
  case countTest =>
    cases hexp : expiredAt s.dl s.now with
    | true => exact irq hat hw (pulseStep_count_test_of_expired hexp)
    | false => exact irq hat hw (pulseStep_count_test_of_not_expired hexp)
  case firstLive => rw [apply_ite Sub.first]
  case secondLive => rw [apply_ite Sub.second]

/-- Settles O38: at each label the operation's step is that label's equation; a wait is the shared `WaitPin`, and a
pulse is the shared `WaitForPulse`. -/
theorem pollStdFollowsItsLabels : Obligations.PollStdFollowsItsLabels := by
  rintro r wait s i rfl
  have hpulse {p : Phase} (hp : p = .p2 ∨ p = .p3 ∨ p = .p4) : ∀ sub, pulsePlace s.cfg.waiter sub = true →
      s.standsAt (.pollStd r wait) p sub →
      exec (.pollStd r wait) s = pulseStep s.cfg.waiter s.dl .toggleReq (afterPulse p) s := fun sub hsub hat =>
    exec_pollStd_at hat fun hph hs => pollStdStep_pulse hph hp (hs ▸ hsub)
  refine ⟨fun hcur hinst hstrict hdone => ?launch,
    waitsFor_of_waitStep_at (fun pos hat => exec_pollStd_at hat pollStdStep_p1) (fun _ c => ?reached) (fun c => rfl),
    awaitsPulse_of_pulseStep (hpulse (by tauto)) (fun _ res c => ?confirmed), fun hat => ?deadline,
    fun p hp hat hrx hcyc => ?sample,
    awaitsPulse_of_pulseStep (hpulse (by tauto)) (fun hph res c => ?bitHeard),
    awaitsPulse_of_pulseStep (hpulse (by tauto)) (fun _ res c => ?configHeard),
    waitsFor_of_waitStep_at (fun pos hat => exec_pollStd_at hat pollStdStep_p5) (fun _ c => rfl) (fun c => rfl),
    fun hat => ?requestLow, fun hat htx hcyc => ?bit, fun hat => ?holdLow, fun hat => ?requestHigh,
    fun hat hcyc => ?holdHigh, fun hat hcyc => ?holdLast, fun hat => ?lastLow, fun hat hrx hsum => ?done,
    fun hat hrx hsum => ?wrong⟩
  case launch =>
    rw [exec_pollStd_rest hcur hinst hstrict hdone]
    rfl
  case reached =>
    rw [pulseEntry_eq_ite]
    rfl
  case confirmed => cases res <;> rfl
  case deadline =>
    refine exec_pollStd_at hat fun hph hsub => ?_
    rw [pollStdStep_deadline hph hsub]
    rfl
  case sample =>
    refine exec_pollStd_at hat fun hph hsub => ?_
    rw [pollStdStep_sample (hph ▸ hp) hsub, pollStdSample_eq hrx hcyc, pulseEntry_eq_ite]
    rfl
  case bitHeard =>
    cases res with
    | finished => exact pollStdP3Done_finished hph
    | _ => rfl
  case configHeard => cases res <;> rfl
  case requestLow =>
    refine exec_pollStd_at hat fun hph hsub => ?_
    rw [pollStdStep_p6_start hph hsub]
    rfl
  case bit =>
    refine exec_pollStd_at hat fun hph hsub => ?_
    rw [pollStdStep_p6 hph hsub, pollStdP6_bit htx hcyc]
    rfl
  case holdLow =>
    refine exec_pollStd_at hat fun hph hsub => ?_
    rw [pollStdStep_p6 hph hsub]
    rfl
  case requestHigh =>
    refine exec_pollStd_at hat fun hph hsub => ?_
    rw [pollStdStep_p6 hph hsub]
    rfl
  case holdHigh =>
    refine exec_pollStd_at hat fun hph hsub => ?_
    rw [pollStdStep_p6 hph hsub, pollStdP6_next hcyc, ← hph]
    rfl
  case holdLast =>
    refine exec_pollStd_at hat fun hph hsub => ?_
    rw [pollStdStep_p6 hph hsub, pollStdP6_last hcyc]
    rfl
  case lastLow =>
    refine exec_pollStd_at hat fun hph hsub => ?_
    rw [pollStdStep_p7_start hph hsub]
    rfl
  case done =>
    refine exec_pollStd_at hat fun hph hsub => ?_
    rw [pollStdStep_p7 hph hsub, pollStdP7_ends hrx, if_pos hsum]
    rfl
  case wrong =>
    refine ⟨(drawRecord s).1, exec_pollStd_at hat fun hph hsub => ?_⟩
    rw [pollStdStep_p7 hph hsub, pollStdP7_ends hrx, if_neg hsum]
    rfl

end Sys2Proof.Machine
end

section
/-! SEND.STD's part in a Std frame on a loopback (O59, O60): its labels are counted in the order it goes through them,
and each position fixes the levels it drives. -/

namespace Sys2Proof.Machine
open Sys2Proof.Claims

/-! ## One side of a loopback -/

/-- What stays as it is at a side: the invariant, its configuration, and the directions of its Setup. -/
structure StdSide (c : Config) (s : State) : Prop where
  inv : s.inv = true
  cfg : s.cfg = c
  wf : c.wf = true
  dirs : dirsSet s = true

section
variable {c : Config} {s t : State} {i : Instr}

theorem StdSide.aside (h : StdSide c s) (hinv : t.inv = true) (hside : Aside s t) : StdSide c t := by
  refine ⟨hinv, ?_, h.wf, ?_⟩ <;> rw [hside]
  · exact h.cfg
  · exact h.dirs

theorem StdSide.exec (h : StdSide c s) (hi : isDataPlane i = true) (hcur : s.cur = none ∨ s.cur = some i)
    (hexec : exec i s = .next t) : StdSide c t := by
  have w := exec_wrote hexec
  exact ⟨exec_inv h.inv (hcur.imp_right .inl) hexec, w.cfg.trans h.cfg, h.wf,
    dirsSet_of_wrote w (setup_ne_dataPlane hi).1 h.dirs⟩

end

/-- The place is the first call of its label: no wait there has read in vain. -/
def isEntry (sub : Sub) : Bool :=
  match sub with
  | .first pos => decide (pos = .read)
  | .second pos => decide (pos = .read)
  | .count pos => decide (pos = .count)
  | _ => true

/-- Where a step of `WaitPin(CTL_IN, v, DL)` inside a data-plane operation leads: the level is there, the wait goes
on, or the operation fails. -/
theorem waits_cases {i : Instr} {v : Bool} {s t : State} {pos : WaitPos} {place : WaitPos → Sub}
    {reached : State → Out} {f : FrameFailure} (hcur : s.cur = some i) (hwf : s.cfg.wf = true)
    (hwait : exec i s = waitStep .ctlIn v s.dl pos place reached (beginAbort f) s) (h : exec i s = .next t) :
    (pos = .read ∧ s.wCtlIn = v) ∨
      (∃ cs l d q, t = { s with calls := cs, lastRead := l, delayLeft := d, sub := place q }) ∨
      (Failed i t ∧ t.outCtl = s.outCtl) := by
  rw [hwait] at h
  rcases waitStep_next h with ⟨hpos, hlevel, -⟩ | ⟨-, -, rfl⟩ | ⟨-, -, h⟩ | ⟨-, -, rfl⟩ | ⟨-, rfl⟩
  · exact .inl ⟨hpos, hlevel⟩
  · exact .inr (.inl ⟨_, _, _, _, rfl⟩)
  · obtain rfl := beginAbort_next h
    exact .inr (.inr ⟨.abort hcur (failureCode_ne_zero hwf) (.inl rfl), rfl⟩)
  · exact .inr (.inl ⟨_, _, _, _, rfl⟩)
  · exact .inr (.inl ⟨_, _, _, _, rfl⟩)

/-! ## Positions of SEND.STD -/

/-- How many times SEND.STD has driven the pulse line low when it is at position `n` (rule R206). -/
def drops (n : Nat) : Nat := min 65 ((n + 1) / 5)

/-- How many requests it has seen (rule R202). -/
def prompts (n : Nat) : Nat := if n = 1 then 1 else min 65 ((n + 3) / 5)

/-- The level of the pulse line. -/
def sendLine (n : Nat) : Bool := decide (¬(4 ≤ n ∧ n ≤ 325 ∧ (n % 5 = 4 ∨ n % 5 = 0)))

/-- It waits for the request line at level `v`. -/
def sendAwaits (n : Nat) (v : Bool) : Prop :=
  (n = 0 ∧ v = true) ∨ (6 ≤ n ∧ n ≤ 321 ∧ n % 5 = 1 ∧ v = decide (n / 5 % 2 = 0)) ∨
    (326 ≤ n ∧ n ≤ 350 ∧ n % 3 = 2 ∧ v = false) ∨ (326 ≤ n ∧ n ≤ 349 ∧ n % 3 = 0 ∧ v = true)

/-- It samples a config bit, bit `(n - 328) / 3`. -/
def sendSamples (n : Nat) : Prop := 328 ≤ n ∧ n ≤ 349 ∧ n % 3 = 1

/-- SEND.STD stands at position `n`: the request and the deadline, 65 slots of five calls each but the first, which
has its prompt before the deadline, and the config phase (rule R202). -/
inductive SendLabel (n : Nat) (ph : Phase) (k : Nat) (sub : Sub) : Prop where
  | request {pos : WaitPos} (hph : ph = .s1) (hsub : sub = .first pos) (hn : n = 0)
  | deadline (hph : ph = .s1) (hsub : sub = .deadline) (hn : n = 1)
  | prompt {pos : WaitPos} (hph : ph = .s3) (hsub : sub = .first pos) (hlo : 1 ≤ k) (hhi : k ≤ 63) (hn : n = 5 * k + 1)
  | slot {i : Nat} (hph : ph = .s2 ∨ ph = .s3) (hsub : sub = .seq i) (hi : i ≤ 3) (hhi : k ≤ 63)
      (hn : n = 5 * k + 2 + i)
  | configPrompt {pos : WaitPos} (hph : ph = .s4) (hsub : sub = .first pos) (hn : n = 321)
  | configSlot {i : Nat} (hph : ph = .s4) (hsub : sub = .seq i) (hi : i ≤ 3) (hn : n = 322 + i)
  | low {pos : WaitPos} (hph : ph = .s5) (hsub : sub = .first pos) (hhi : k ≤ 7) (hn : n = 326 + 3 * k)
  | high {pos : WaitPos} (hph : ph = .s5) (hsub : sub = .second pos) (hhi : k ≤ 7) (hn : n = 327 + 3 * k)
  | sample (hph : ph = .s5) (hsub : sub = .start) (hhi : k ≤ 7) (hn : n = 328 + 3 * k)
  | lastLow {pos : WaitPos} (hph : ph = .s6) (hsub : sub = .first pos) (hn : n = 350)
  | decode (hph : ph = .s7) (hsub : sub = .start) (hn : n = 351)

/-- SEND.STD runs at position `n` of a frame that carries `st`. -/
structure SendAt (st : JoystickState) (wait : Word) (n : Nat) (s : State) : Prop where
  cur : s.cur = some (.sendStd st wait)
  label : SendLabel n s.phase s.cyc.toNat s.sub
  tx : s.txbuf = encStdState st
  line : s.outCtl = sendLine n
  data : 3 ≤ n → n ≤ 322 → s.outData = rawBit (encStdState st) ((n - 3) / 5)
  req : 2 ≤ n → n ≤ 325 → s.req = decide ((n - 1) / 5 % 2 = 0)

section
variable {st : JoystickState} {wait : Word} {c : Config} {n : Nat} {s t : State}

theorem SendAt.aside (h : SendAt st wait n s) (hside : Aside s t) : SendAt st wait n t := by
  obtain ⟨hcur, hlabel, htx, hline, hdata, hreq⟩ := h
  rw [hside]
  exact ⟨hcur, hlabel, htx, hline, hdata, hreq⟩

/-! ## From one position to the next -/

/-- What a label's call may do to the pulse line: nothing, or its edge. -/
def LineMoves (n : Nat) (s t : State) : Prop :=
  (t.outCtl = s.outCtl ∧ (n % 5 = 3 → 323 < n) ∧ (n % 5 = 0 → n = 0 ∨ 325 < n)) ∨
    (t.outCtl = false ∧ n ≤ 323 ∧ n % 5 = 3) ∨ (t.outCtl = true ∧ 5 ≤ n ∧ n ≤ 325 ∧ n % 5 = 0)

/-- What it may do to the data line: nothing, or drive the slot's bit. -/
def BitMoves (st : JoystickState) (n : Nat) (s t : State) : Prop :=
  (t.outData = s.outData ∧ (n % 5 = 2 → 322 ≤ n)) ∨ (t.outData = rawBit (encStdState st) (n / 5) ∧ n % 5 = 2) ∨ 322 ≤ n

/-- What it may do to `REQ`: nothing, or go on to the level of the next prompt. -/
def ReqMoves (n : Nat) (s t : State) : Prop :=
  (t.req = s.req ∧ n ≠ 1 ∧ (n % 5 = 0 → n = 0 ∨ 325 ≤ n)) ∨ (t.req = true ∧ n = 1) ∨
    (t.req = !s.req ∧ 5 ≤ n ∧ n % 5 = 0)

/-- What it may do to `RXBUF`: nothing, or keep the sample. -/
def SendSampled (n : Nat) (s t : State) : Prop :=
  (t.rxbuf = s.rxbuf ∧ ¬sendSamples n) ∨
    (t.rxbuf = rawPutBit s.rxbuf ((n - 328) / 3) s.wDataIn ∧ sendSamples n)

/-- `t` is `s` after the call of the label at position `n`. -/
structure SendAdvances (st : JoystickState) (wait : Word) (n : Nat) (s t : State) : Prop where
  at_succ : SendAt st wait (n + 1) t
  entry : isEntry t.sub = true
  sampled : SendSampled n s t

/-- A label's call leads to the next position if it leaves the place, the lines and the buffers as that position has
them; what is not said changes nothing. -/
theorem SendAt.advances (h : SendAt st wait n s) {k : Nat} (hk : t.cyc.toNat = k)
    (hlabel : SendLabel (n + 1) t.phase k t.sub) (hcur : t.cur = s.cur := by rfl)
    (hentry : isEntry t.sub = true := by rfl) (htx : t.txbuf = s.txbuf := by rfl)
    (hline : LineMoves n s t := by exact .inl ⟨rfl, by omega, by omega⟩)
    (hbit : BitMoves st n s t := by exact .inl ⟨rfl, by omega⟩)
    (hreq : ReqMoves n s t := by exact .inl ⟨rfl, by omega, by omega⟩)
    (hrx : SendSampled n s t := by exact .inl ⟨rfl, fun ⟨_, _, _⟩ => by omega⟩) : SendAdvances st wait n s t := by
  refine ⟨⟨hcur.trans h.cur, hk ▸ hlabel, htx.trans h.tx, ?line, fun hlo hhi => ?data, fun hlo hhi => ?req⟩, hentry,
    hrx⟩
  case line =>
    rcases hline with ⟨ht, hn⟩ | ⟨ht, hhi, hn⟩ | ⟨ht, hlo, hhi, hn⟩
    · exact ht.trans (h.line.trans (decide_eq_decide.mpr (by omega)))
    · exact ht.trans (decide_eq_false (by omega)).symm
    · exact ht.trans (decide_eq_true (by omega)).symm
  case data =>
    rcases hbit with ⟨ht, hn⟩ | ⟨ht, hn⟩ | hn
    · have hsame : (n + 1 - 3) / 5 = (n - 3) / 5 := by omega
      rw [ht, hsame, h.data (by omega) (by omega)]
    · have hnext : (n + 1 - 3) / 5 = n / 5 := by omega
      rw [ht, hnext]
    · omega
  case req =>
    rcases hreq with ⟨ht, hne, hn⟩ | ⟨ht, rfl⟩ | ⟨ht, hlo', hn⟩
    · rw [ht, h.req (by omega) (by omega)]
      exact decide_eq_decide.mpr (by omega)
    · rw [ht]
      rfl
    · rw [ht, h.req (by omega) (by omega), ← decide_not]
      exact decide_eq_decide.mpr (by omega)

theorem StdSide.rxbuf_bits {r : Role} (hst : StdSide c s) (hinst : isInstance c .std r = true) :
    s.rxbuf.N = rxWidth { c with variant := .std, role := r } ∧ s.rxbuf.N ≤ 8 * s.rxbuf.bytes.length := by
  obtain ⟨hb, -⟩ := (State.inv_iff s).mp hst.inv
  obtain ⟨-, hrx, -, -⟩ := (buffersOk_iff s).mp hb
  obtain ⟨-, hN⟩ := bufferWidths hb (hst.cfg ▸ hinst)
  exact ⟨hst.cfg ▸ hN, capacity_le_bits hrx⟩

/-- With the level there that a wait waits for, a label's step goes to the next position. -/
theorem sendStd_advances (hst : StdSide c s) (hinst : isInstance c .std .throttleClient = true)
    (h : SendAt st wait n s) (hdelay : s.delayLeft = 0) (hentry : isEntry s.sub = true) (hn : n < 351)
    (hwait : ∀ v, sendAwaits n v → s.wCtlIn = v) :
    ∃ t, exec (.sendStd st wait) s = .next t ∧ SendAdvances st wait n s t := by
  obtain ⟨hrx, hbits⟩ := hst.rxbuf_bits hinst
  have hrx : s.rxbuf.N = 8 := hrx
  have htx : s.txbuf.N = 64 := by rw [h.tx]; exact encStdState_N st
  have hprompt (hlo : 6 ≤ n) (hhi : n ≤ 321) (hmod : n % 5 = 1) : s.wCtlIn = s.req := by
    rw [hwait _ (.inr (.inl ⟨hlo, hhi, hmod, rfl⟩)), h.req (by omega) (by omega)]
    exact decide_eq_decide.mpr (by omega)
  cases h.label with
  | @request pos hph hsub hn =>
    obtain rfl : pos = .read := by simpa [hsub, isEntry] using hentry
    refine ⟨_, exec_sendStd_at ⟨h.cur, hdelay, hph, hsub⟩ fun hph hsub =>
      (sendStdStep_s1 hph hsub).trans (waitStep_read_of_level (hwait true (.inl ⟨hn, rfl⟩))), ?_⟩
    exact h.advances rfl (.deadline hph rfl (by omega))
  | deadline hph hsub hn =>
    refine ⟨_, exec_sendStd_at ⟨h.cur, hdelay, hph, hsub⟩ sendStdStep_deadline, ?_⟩
    exact h.advances (k := 0) rfl (.slot (i := 0) (.inl rfl) rfl (by omega) (by omega) (by omega))
      (hreq := .inr (.inl ⟨rfl, hn⟩))
  | @prompt pos hph hsub hlo hhi hn =>
    obtain rfl : pos = .read := by simpa [hsub, isEntry] using hentry
    have hlevel := hprompt (by omega) (by omega) (by omega)
    refine ⟨_, exec_sendStd_at ⟨h.cur, hdelay, hph, hsub⟩ fun hph hsub =>
      (sendStdStep_prompt (.inl hph) hsub).trans (waitStep_read_of_level hlevel), ?_⟩
    exact h.advances (k := s.cyc.toNat) rfl (.slot (i := 0) (.inr hph) rfl (by omega) hhi (by omega))
  | @slot i hph hsub hi hhi hn =>
    have hat : s.standsAt (.sendStd st wait) s.phase (.seq i) := ⟨h.cur, hdelay, rfl, hsub⟩
    obtain rfl | rfl | rfl | rfl : i = 0 ∨ i = 1 ∨ i = 2 ∨ i = 3 := by omega
    · refine ⟨_, exec_sendStd_at hat fun _ hsub => (sendStdStep_bit hph hsub).trans (sendStdBit_eq htx hhi), ?_⟩
      have hk : s.cyc.toNat = n / 5 := by omega
      refine h.advances (k := s.cyc.toNat) rfl (.slot (i := 1) hph rfl (by omega) hhi (by omega))
        (hbit := .inr (.inl ⟨?_, by omega⟩))
      rw [← h.tx, ← hk]
      rfl
    · refine ⟨_, exec_sendStd_at hat fun _ hsub => sendStdStep_pulse rfl (by tauto) hsub, ?_⟩
      exact h.advances (k := s.cyc.toNat) rfl (.slot (i := 2) hph rfl (by omega) hhi (by omega))
        (hline := .inr (.inl ⟨rfl, by omega, by omega⟩))
    · refine ⟨_, exec_sendStd_at hat fun _ hsub => sendStdStep_pulse rfl (by tauto) hsub, ?_⟩
      exact h.advances (k := s.cyc.toNat) rfl (.slot (i := 3) hph rfl (by omega) hhi (by omega))
    · have hslot : sendStdStep st wait s = sendStdNextBit (pinWrite .ctlOut true s) := by
        rw [sendStdStep_pulse rfl (by tauto) hsub]
        rcases hph with hph | hph <;> rw [hph] <;> rfl
      by_cases hlast : s.cyc.toNat < 63
      · refine ⟨_, exec_sendStd_at hat fun _ _ => hslot.trans (sendStdNextBit_of_lt hlast), ?_⟩
        exact h.advances (k := s.cyc.toNat + 1) (cyc_succ_toNat (c := s.cyc) (by omega))
          (.prompt rfl rfl (by omega) (by omega) (by omega)) (hline := .inr (.inr ⟨rfl, by omega, by omega, by omega⟩))
          (hreq := .inr (.inr ⟨rfl, by omega, by omega⟩))
      · have hlast : s.cyc.toNat = 63 := by omega
        refine ⟨_, exec_sendStd_at hat fun _ _ => hslot.trans (sendStdNextBit_of_last hlast), ?_⟩
        exact h.advances rfl (.configPrompt rfl rfl (by omega))
          (hline := .inr (.inr ⟨rfl, by omega, by omega, by omega⟩)) (hreq := .inr (.inr ⟨rfl, by omega, by omega⟩))
  | @configPrompt pos hph hsub hn =>
    obtain rfl : pos = .read := by simpa [hsub, isEntry] using hentry
    have hlevel := hprompt (by omega) (by omega) (by omega)
    refine ⟨_, exec_sendStd_at ⟨h.cur, hdelay, hph, hsub⟩ fun hph hsub =>
      (sendStdStep_prompt (.inr hph) hsub).trans (waitStep_read_of_level hlevel), ?_⟩
    exact h.advances rfl (.configSlot (i := 0) hph rfl (by omega) (by omega))
  | @configSlot i hph hsub hi hn =>
    have hat : s.standsAt (.sendStd st wait) .s4 (.seq i) := ⟨h.cur, hdelay, hph, hsub⟩
    obtain rfl | rfl | rfl | rfl : i = 0 ∨ i = 1 ∨ i = 2 ∨ i = 3 := by omega
    · refine ⟨_, exec_sendStd_at hat sendStdStep_configBit, ?_⟩
      exact h.advances rfl (.configSlot (i := 1) hph rfl (by omega) (by omega)) (hbit := .inr (.inr (by omega)))
    · refine ⟨_, exec_sendStd_at hat fun hph hsub => sendStdStep_pulse hph (by tauto) hsub, ?_⟩
      exact h.advances rfl (.configSlot (i := 2) hph rfl (by omega) (by omega))
        (hline := .inr (.inl ⟨rfl, by omega, by omega⟩))
    · refine ⟨_, exec_sendStd_at hat fun hph hsub => sendStdStep_pulse hph (by tauto) hsub, ?_⟩
      exact h.advances rfl (.configSlot (i := 3) hph rfl (by omega) (by omega))
    · refine ⟨_, exec_sendStd_at hat fun hph hsub => sendStdStep_pulse hph (by tauto) hsub, ?_⟩
      exact h.advances (k := 0) rfl (.low rfl rfl (by omega) (by omega))
        (hline := .inr (.inr ⟨rfl, by omega, by omega, by omega⟩))
  | @low pos hph hsub hhi hn =>
    obtain rfl : pos = .read := by simpa [hsub, isEntry] using hentry
    have hlevel := hwait false (.inr (.inr (.inl ⟨by omega, by omega, by omega, rfl⟩)))
    refine ⟨_, exec_sendStd_at ⟨h.cur, hdelay, hph, hsub⟩ fun hph hsub =>
      (sendStdStep_s5 hph (.inr ⟨_, .inl hsub⟩)).trans
        (hsub ▸ (sendStdS5_low .read s).trans (waitStep_read_of_level hlevel)), ?_⟩
    exact h.advances (k := s.cyc.toNat) rfl (.high hph rfl hhi (by omega))
  | @high pos hph hsub hhi hn =>
    obtain rfl : pos = .read := by simpa [hsub, isEntry] using hentry
    have hlevel := hwait true (.inr (.inr (.inr ⟨by omega, by omega, by omega, rfl⟩)))
    refine ⟨_, exec_sendStd_at ⟨h.cur, hdelay, hph, hsub⟩ fun hph hsub =>
      (sendStdStep_s5 hph (.inr ⟨_, .inr hsub⟩)).trans
        (hsub ▸ (sendStdS5_high .read s).trans (waitStep_read_of_level hlevel)), ?_⟩
    exact h.advances (k := s.cyc.toNat) rfl (.sample hph rfl hhi (by omega))
  | sample hph hsub hhi hn =>
    have hat : s.standsAt (.sendStd st wait) .s5 .start := ⟨h.cur, hdelay, hph, hsub⟩
    have hk : s.cyc.toNat = (n - 328) / 3 := by omega
    have hstep {u : State} (hu : _ = u) : sendStdStep st wait s = .next u :=
      (sendStdStep_s5 hph (.inl hsub)).trans (hsub ▸ (sendStdS5_sample hrx hhi).trans (congrArg _ hu))
    by_cases hlast : s.cyc.toNat < 7
    · refine ⟨_, exec_sendStd_at hat fun _ _ => hstep (if_pos hlast), ?_⟩
      exact h.advances (k := s.cyc.toNat + 1) (cyc_succ_toNat (by omega)) (.low rfl rfl (by omega) (by omega))
        (hrx := .inr ⟨by rw [← hk]; rfl, by omega, by omega, by omega⟩)
    · refine ⟨_, exec_sendStd_at hat fun _ _ => hstep (if_neg hlast), ?_⟩
      exact h.advances rfl (.lastLow rfl rfl (by omega))
        (hrx := .inr ⟨by rw [← hk]; rfl, by omega, by omega, by omega⟩)
  | @lastLow pos hph hsub hn =>
    obtain rfl : pos = .read := by simpa [hsub, isEntry] using hentry
    have hlevel := hwait false (.inr (.inr (.inl ⟨by omega, by omega, by omega, rfl⟩)))
    refine ⟨_, exec_sendStd_at ⟨h.cur, hdelay, hph, hsub⟩ fun hph hsub =>
      (sendStdStep_s6 hph hsub).trans (waitStep_read_of_level hlevel), ?_⟩
    exact h.advances rfl (.decode rfl rfl (by omega))
  | decode _ _ hn' => omega

/-- SEND.STD starts at position 0, with an empty `RXBUF`. -/
theorem sendStd_starts (hinst : isInstance s.cfg .std .throttleClient = true) (hstrict : s.cfg.stdStrict = false)
    (hdone : s.setupDone = true) (hcur : s.cur = none) (hline : s.outCtl = true) :
    ∃ t, exec (.sendStd st wait) s = .next t ∧ SendAt st wait 0 t ∧ t.delayLeft = 0 ∧ isEntry t.sub = true ∧
      t.outCtl = s.outCtl := by
  refine ⟨_, exec_sendStd_rest hcur hinst hstrict hdone, ⟨rfl, .request rfl rfl rfl, rfl, hline, ?_, ?_⟩, rfl, rfl, rfl⟩
  · intro hlo
    omega
  · intro hlo
    omega

/-- Past its last position SEND.STD returns 0, with the config its `RXBUF` stands for. -/
theorem sendStd_ends (hst : StdSide c s) (hinst : isInstance c .std .throttleClient = true)
    (h : SendAt st wait 351 s) (hdelay : s.delayLeft = 0) :
    ∃ t, exec (.sendStd st wait) s = .next t ∧ t.cur = none ∧ t.outCtl = s.outCtl ∧ t.result = .code 0 ∧
      t.outStdCfg = stdConfigOf s.rxbuf := by
  have ⟨hrx, _⟩ := hst.rxbuf_bits hinst
  cases h.label with
  | decode hph hsub =>
    exact ⟨_, exec_sendStd_at ⟨h.cur, hdelay, hph, hsub⟩ fun hph hsub =>
      (sendStdStep_s7 hph hsub).trans (sendStdS7_eq hrx), rfl, rfl, rfl, rfl⟩
  | _ => omega

theorem sendAwaits_unique {v v' : Bool} (h : sendAwaits n v) (h' : sendAwaits n v') : v' = v := by
  unfold sendAwaits at h h'
  grind

/-- While it waits, the pulse line is idle. -/
theorem sendLine_of_awaits {v : Bool} (h : sendAwaits n v) : sendLine n = true := by
  unfold sendAwaits at h
  exact decide_eq_true (by omega)

/-- At a position that is no wait, a label has only its first call; at the others the step is that of
`WaitPin(CTL_IN, v, DL)`, whose deadline is a failure. -/
theorem sendStd_waits (h : SendAt st wait n s) (hdelay : s.delayLeft = 0) :
    (isEntry s.sub = true ∧ ∀ v, ¬sendAwaits n v) ∨
      ∃ v place pos reached f, (place = Sub.first ∨ place = Sub.second) ∧ sendAwaits n v ∧ s.sub = place pos ∧
        exec (.sendStd st wait) s = waitStep .ctlIn v s.dl pos place reached (beginAbort f) s := by
  have free (hsub : isEntry s.sub = true) (hn : n ≠ 0 ∧ (n < 6 ∨ 321 < n ∨ n % 5 ≠ 1) ∧ (n < 326 ∨ n = 351 ∨
      n % 3 = 1)) : isEntry s.sub = true ∧ ∀ v, ¬sendAwaits n v := ⟨hsub, fun v h => by unfold sendAwaits at h; omega⟩
  cases h.label with
  | request hph hsub hn =>
    exact .inr ⟨true, .first, _, _, _, .inl rfl, .inl ⟨hn, rfl⟩, hsub,
      exec_sendStd_at ⟨h.cur, hdelay, hph, hsub⟩ sendStdStep_s1⟩
  | deadline _ hsub _ => exact .inl (free (by rw [hsub]; rfl) (by omega))
  | prompt hph hsub hlo hhi hn =>
    have hreq : sendAwaits n s.req := .inr (.inl ⟨by omega, by omega, by omega, by
      rw [h.req (by omega) (by omega)]; exact decide_eq_decide.mpr (by omega)⟩)
    exact .inr ⟨s.req, .first, _, _, _, .inl rfl, hreq, hsub, exec_sendStd_at ⟨h.cur, hdelay, hph, hsub⟩ fun hph hsub =>
      sendStdStep_prompt (.inl hph) hsub⟩
  | slot _ hsub _ _ _ => exact .inl (free (by rw [hsub]; rfl) (by omega))
  | configPrompt hph hsub hn =>
    have hreq : sendAwaits n s.req := .inr (.inl ⟨by omega, by omega, by omega, by
      rw [h.req (by omega) (by omega)]; exact decide_eq_decide.mpr (by omega)⟩)
    exact .inr ⟨s.req, .first, _, _, _, .inl rfl, hreq, hsub, exec_sendStd_at ⟨h.cur, hdelay, hph, hsub⟩ fun hph hsub =>
      sendStdStep_prompt (.inr hph) hsub⟩
  | configSlot _ hsub _ _ => exact .inl (free (by rw [hsub]; rfl) (by omega))
  | low hph hsub hhi hn =>
    exact .inr ⟨false, .first, _, _, _, .inl rfl, .inr (.inr (.inl ⟨by omega, by omega, by omega, rfl⟩)), hsub,
      exec_sendStd_at ⟨h.cur, hdelay, hph, hsub⟩ fun hph hsub =>
        (sendStdStep_s5 hph (.inr ⟨_, .inl hsub⟩)).trans (hsub ▸ sendStdS5_low _ s)⟩
  | high hph hsub hhi hn =>
    exact .inr ⟨true, .second, _, _, _, .inr rfl, .inr (.inr (.inr ⟨by omega, by omega, by omega, rfl⟩)), hsub,
      exec_sendStd_at ⟨h.cur, hdelay, hph, hsub⟩ fun hph hsub =>
        (sendStdStep_s5 hph (.inr ⟨_, .inr hsub⟩)).trans (hsub ▸ sendStdS5_high _ s)⟩
  | sample _ hsub _ _ => exact .inl (free (by rw [hsub]; rfl) (by omega))
  | lastLow hph hsub hn =>
    exact .inr ⟨false, .first, _, _, _, .inl rfl, .inr (.inr (.inl ⟨by omega, by omega, by omega, rfl⟩)), hsub,
      exec_sendStd_at ⟨h.cur, hdelay, hph, hsub⟩ sendStdStep_s6⟩
  | decode _ hsub _ => exact .inl (free (by rw [hsub]; rfl) (by omega))

/-- A wait that goes on stays at its position. -/
theorem SendLabel.of_wait {ph : Phase} {k : Nat} {place : WaitPos → Sub} (hplace : place = .first ∨ place = .second)
    {pos : WaitPos} (q : WaitPos) (h : SendLabel n ph k (place pos)) : SendLabel n ph k (place q) := by
  rcases hplace with rfl | rfl
  · cases h with
    | request hph _ hn => exact .request hph rfl hn
    | prompt hph _ hlo hhi hn => exact .prompt hph rfl hlo hhi hn
    | configPrompt hph _ hn => exact .configPrompt hph rfl hn
    | low hph _ hhi hn => exact .low hph rfl hhi hn
    | lastLow hph _ hn => exact .lastLow hph rfl hn
    | _ _ hsub => cases hsub
  · cases h with
    | high hph _ hhi hn => exact .high hph rfl hhi hn
    | _ _ hsub => cases hsub

theorem SendLabel.le {ph : Phase} {k : Nat} {sub : Sub} (h : SendLabel n ph k sub) : n ≤ 351 := by
  cases h <;> omega

/-- Where a step of SEND.STD leads: it stays, it goes to the next position with the level there that it waits for, it
fails with the pulse line at idle, or past its last position it returns. -/
inductive SendGoes (st : JoystickState) (wait : Word) (n : Nat) (s t : State) : Prop where
  | stays (h : SendAt st wait n t)
  | on (h : SendAt st wait (n + 1) t) (hwait : ∀ v, sendAwaits n v → s.wCtlIn = v)
  | fails (h : Failed (.sendStd st wait) t) (hline : t.outCtl = true) (hn : sendLine n = true)
  | ends (hn : n = 351) (hcur : t.cur = none) (hline : t.outCtl = true)

theorem sendStd_goes (hst : StdSide c s) (hinst : isInstance c .std .throttleClient = true)
    (hs : SendAt st wait n s) (h : exec (.sendStd st wait) s = .next t) : SendGoes st wait n s t := by
  by_cases hdelay : s.delayLeft = 0
  case neg =>
    have hheld : exec (.sendStd st wait) s = .next s := running_held hs.cur (Nat.pos_of_ne_zero hdelay)
    obtain rfl := Host.Outcome.next.inj (hheld.symm.trans h)
    exact .stays hs
  have advances (hentry : isEntry s.sub = true) (hn : n < 351) (hwait : ∀ v, sendAwaits n v → s.wCtlIn = v) :
      SendGoes st wait n s t := by
    obtain ⟨t', hnext, hadv⟩ := sendStd_advances hst hinst hs hdelay hentry hn hwait
    obtain rfl := Host.Outcome.next.inj (hnext.symm.trans h)
    exact .on hadv.at_succ hwait
  rcases hs.label.le.eq_or_lt with rfl | hn
  · obtain ⟨t', hnext, hcur, hline, -⟩ := sendStd_ends hst hinst hs hdelay
    obtain rfl := Host.Outcome.next.inj (hnext.symm.trans h)
    exact .ends rfl hcur (hline.trans hs.line)
  rcases sendStd_waits hs hdelay with ⟨hentry, hfree⟩ | ⟨v, place, pos, reached, f, hplace, hv, hsub, hwait⟩
  · exact advances hentry hn fun v hv => (hfree v hv).elim
  rcases waits_cases hs.cur (hst.cfg ▸ hst.wf) hwait h with ⟨rfl, hlevel⟩ | ⟨cs, l, d, q, rfl⟩ | ⟨hfail, hline⟩
  · refine advances ?_ hn fun v' hv' => hlevel.trans (sendAwaits_unique hv hv').symm
    rcases hplace with rfl | rfl <;> rw [hsub] <;> rfl
  · exact .stays ⟨hs.cur, (hsub ▸ hs.label).of_wait hplace q, hs.tx, hs.line, hs.data, hs.req⟩
  · exact .fails hfail (hline.trans (hs.line.trans (sendLine_of_awaits hv))) (sendLine_of_awaits hv)

end

end Sys2Proof.Machine
end

section
/-! POLL.STD's part in a Std frame on a loopback (O59, O60), counted as SEND.STD's is; what a `WaitForPulse` needs of
the peer is said for both waiters. -/

namespace Sys2Proof.Machine
open Sys2Proof.Claims

/-! ## Positions of POLL.STD -/

/-- How many calls a `WaitForPulse` makes before its trigger: the snapshot, if there is one (rule R172). -/
def lead (w : Waiter) : Nat :=
  match w with
  | .polling => 0
  | .interruptCounted => 1

theorem lead_le (w : Waiter) : lead w ≤ 1 := by cases w <;> decide

/-- How many pulses POLL.STD has heard when it is at position `m`. -/
def heard (m : Nat) : Nat := if m = 4 then 1 else min 65 ((m - 1) / 4)

/-- Where it is in its `WaitForPulse`: 1 to 3 at the three calls of it, 0 outside. -/
def stage (m : Nat) : Nat := if m ≤ 4 then m % 4 else if m ≤ 260 then (m - 1) % 4 else 0

/-- How often it has toggled the request line for a pulse. -/
def asked (w : Waiter) (m : Nat) : Nat := heard m + if 2 + lead w ≤ stage m then 1 else 0

/-- The level of the request line: that of the last toggle, and in the config phase low inside a bit (rule R201). -/
def pollLine (w : Waiter) (m : Nat) : Bool :=
  if m ≤ 261 then decide (asked w m % 2 = 1) else decide (¬(1 ≤ (m - 262) % 5 ∧ (m - 262) % 5 ≤ 3))

/-- It samples a state bit, bit `(m - 5) / 4`. -/
def pollSamples (m : Nat) : Prop := 5 ≤ m ∧ m ≤ 257 ∧ m % 4 = 1

/-- The call of a `WaitForPulse` that a place of it stands for, counted from 0. -/
def pulseIndex (w : Waiter) (sub : Sub) : Nat :=
  match sub with
  | .trigger => lead w
  | .first _ => 1
  | .second _ => 2
  | .count _ => 2
  | _ => 0

theorem pulseIndex_le (w : Waiter) (sub : Sub) : pulseIndex w sub ≤ 2 := by
  have hlead := lead_le w
  cases sub <;> simp [pulseIndex]
  omega

/-- POLL.STD stands at position `m`: the idle line, the confirmation pulse and the deadline, 64 samples with a pulse
after each, and the config phase (rule R201). -/
inductive PollLabel (w : Waiter) (m : Nat) (ph : Phase) (k : Nat) (sub : Sub) : Prop where
  | idle {pos : WaitPos} (hph : ph = .p1) (hsub : sub = .first pos) (hm : m = 0)
  | pulse {b : Nat} (hph : ph = .p2 ∧ b = 1 ∨ (ph = .p3 ∧ k ≤ 62 ∨ ph = .p4 ∧ k = 63) ∧ b = 4 * k + 6)
      (hsub : pulsePlace w sub = true) (hm : m = b + pulseIndex w sub)
  | deadline (hph : ph = .p2) (hsub : sub = .deadline) (hm : m = 4)
  | sample (hph : ph = .p3 ∧ k ≤ 62 ∨ ph = .p4 ∧ k = 63) (hsub : sub = .start) (hm : m = 4 * k + 5)
  | idleAgain {pos : WaitPos} (hph : ph = .p5) (hsub : sub = .first pos) (hm : m = 261)
  | request (hph : ph = .p6) (hsub : sub = .start) (hhi : k ≤ 7) (hm : m = 262 + 5 * k)
  | config {i : Nat} (hph : ph = .p6) (hsub : sub = .seq i) (hlo : 1 ≤ i) (hi : i ≤ 4) (hhi : k ≤ 7)
      (hm : m = 262 + 5 * k + i)
  | lastRequest (hph : ph = .p7) (hsub : sub = .start) (hm : m = 302)
  | decode (hph : ph = .p7) (hsub : sub = .seq 1) (hm : m = 303)

/-- POLL.STD runs at position `m` of a frame that carries `r`. -/
structure PollAt (w : Waiter) (r : StdConfig) (wait : Word) (m : Nat) (s : State) : Prop where
  cur : s.cur = some (.pollStd r wait)
  label : PollLabel w m s.phase s.cyc.toNat s.sub
  tx : s.txbuf = encStdCfg r
  line : s.outCtl = pollLine w m
  req : s.req = s.outCtl
  data : 264 ≤ m → s.outData = rawBit (encStdCfg r) ((m - 264) / 5)

section
variable {w : Waiter} {r : StdConfig} {wait : Word} {c : Config} {m : Nat} {s t : State}

theorem PollAt.aside (h : PollAt w r wait m s) (hside : Aside s t) : PollAt w r wait m t := by
  obtain ⟨hcur, hlabel, htx, hline, hreq, hdata⟩ := h
  rw [hside]
  exact ⟨hcur, hlabel, htx, hline, hreq, hdata⟩

/-! ## From one position to the next -/

/-- What a label's call may do to the request line: nothing, or drive the next position's level, which `REQ` follows.
-/
def RequestMoves (w : Waiter) (m : Nat) (s t : State) : Prop :=
  (t.outCtl = s.outCtl ∧ t.req = s.req ∧ pollLine w (m + 1) = pollLine w m) ∨
    (t.outCtl = pollLine w (m + 1) ∧ t.req = t.outCtl)

/-- What it may do to the data line: nothing, or drive a config bit. -/
def ConfigBitMoves (r : StdConfig) (m : Nat) (s t : State) : Prop :=
  (t.outData = s.outData ∧ (m < 263 ∨ m % 5 ≠ 3)) ∨
    (t.outData = rawBit (encStdCfg r) ((m - 262) / 5) ∧ 263 ≤ m ∧ m % 5 = 3)

/-- What it may do to `RXBUF`: nothing, or keep the sample. -/
def PollSampled (m : Nat) (s t : State) : Prop :=
  (t.rxbuf = s.rxbuf ∧ ¬pollSamples m) ∨ (t.rxbuf = rawPutBit s.rxbuf ((m - 5) / 4) s.wDataIn ∧ pollSamples m)

/-- What it may do to the baseline: nothing, or capture it. -/
def BaseMoves (w : Waiter) (m : Nat) (s t : State) : Prop :=
  w = .interruptCounted → (stage m = 1 → t.baseCnt = s.edgeCnt) ∧ (stage m ≠ 1 → t.baseCnt = s.baseCnt)

/-- `t` is `s` after the call of the label at position `m`. -/
structure PollAdvances (w : Waiter) (r : StdConfig) (wait : Word) (m : Nat) (s t : State) : Prop where
  at_succ : PollAt w r wait (m + 1) t
  entry : isEntry t.sub = true
  sampled : PollSampled m s t
  base : BaseMoves w m s t

/-- A label's call leads to the next position if it leaves the place, the lines and the buffers as that position has
them; what is not said changes nothing. -/
theorem PollAt.advances (h : PollAt w r wait m s) {k : Nat} (hk : t.cyc.toNat = k)
    (hlabel : PollLabel w (m + 1) t.phase k t.sub) (hline : RequestMoves w m s t) (hcur : t.cur = s.cur := by rfl)
    (hentry : isEntry t.sub = true := by rfl) (htx : t.txbuf = s.txbuf := by rfl)
    (hbit : ConfigBitMoves r m s t := by exact .inl ⟨rfl, by omega⟩)
    (hrx : PollSampled m s t := by exact .inl ⟨rfl, fun ⟨_, _, _⟩ => by omega⟩)
    (hbase : BaseMoves w m s t := by exact fun _ => ⟨fun _ => by grind [stage], fun _ => rfl⟩) :
    PollAdvances w r wait m s t := by
  refine ⟨⟨hcur.trans h.cur, hk ▸ hlabel, htx.trans h.tx, ?line, ?req, fun hlo => ?data⟩, hentry, hrx, hbase⟩
  case line =>
    rcases hline with ⟨ht, -, hsame⟩ | ⟨ht, -⟩
    · exact ht.trans (h.line.trans hsame.symm)
    · exact ht
  case req =>
    rcases hline with ⟨ht, hreq, -⟩ | ⟨-, hreq⟩
    · exact hreq.trans (h.req.trans ht.symm)
    · exact hreq
  case data =>
    rcases hbit with ⟨ht, hm⟩ | ⟨ht, hlo', hm⟩
    · have hsame : (m + 1 - 264) / 5 = (m - 264) / 5 := by omega
      rw [ht, hsame, h.data (by omega)]
    · have hnext : (m + 1 - 264) / 5 = (m - 262) / 5 := by omega
      rw [ht, hnext]

theorem pollLine_of_le (h : m ≤ 261) : pollLine w m = decide (asked w m % 2 = 1) := if_pos h

theorem pollLine_of_config (h : 262 ≤ m) : pollLine w m = decide (¬(1 ≤ (m - 262) % 5 ∧ (m - 262) % 5 ≤ 3)) :=
  if_neg (by omega)

/-- A trigger is what asks for a pulse. -/
theorem asked_succ (h : m ≤ 260) : asked w (m + 1) = asked w m + if stage m = 1 + lead w then 1 else 0 := by
  have hlead := lead_le w
  unfold asked heard stage
  split_ifs <;> omega

theorem asked_config (h : 261 ≤ m) : asked w m = 65 := by
  unfold asked heard stage
  split_ifs <;> omega

/-- Nothing but a trigger, or a write of the config phase, moves the request line. -/
theorem pollLine_succ (h : m ≤ 260 ∧ stage m ≠ 1 + lead w ∨ 261 ≤ m ∧ m % 5 ≠ 2 ∧ m % 5 ≠ 0) :
    pollLine w (m + 1) = pollLine w m := by
  rcases h with ⟨hle, hstage⟩ | ⟨hge, hmod⟩
  · rw [pollLine_of_le (by omega), pollLine_of_le (by omega), asked_succ hle, if_neg hstage, Nat.add_zero]
  rcases hge.eq_or_lt with rfl | hge
  · rw [pollLine_of_le le_rfl, asked_config le_rfl]
    rfl
  · rw [pollLine_of_config (by omega), pollLine_of_config (by omega)]
    exact decide_eq_decide.mpr (by omega)

/-- A trigger toggles the request line. -/
theorem pollLine_trigger (hm : m ≤ 260) (h : stage m = 1 + lead w) : pollLine w (m + 1) = !pollLine w m := by
  rw [pollLine_of_le (by omega), pollLine_of_le (by omega), asked_succ hm, if_pos h, ← decide_not]
  exact decide_eq_decide.mpr (by omega)

/-! ## The steps of a `WaitForPulse` -/

/-- What ends a wait of POLL.STD at position `m`: the idle line, the drop and the return of a pulse, or its edge. -/
structure PollFree (w : Waiter) (m : Nat) (s : State) : Prop where
  idle : m = 0 ∨ m = 261 → s.wCtlIn = true
  drop : w = .polling → stage m = 2 → s.wCtlIn = false
  back : w = .polling → stage m = 3 → s.wCtlIn = true
  edge : w = .interruptCounted → stage m = 3 → s.edgeCnt - s.baseCnt = 1

theorem stage_of_samples (h : pollSamples m) : stage m = 0 := by
  obtain ⟨hlo, hhi, hmod⟩ := h
  unfold stage
  split_ifs <;> omega

theorem stage_of_pulse {ph : Phase} {k b i : Nat}
    (hph : ph = .p2 ∧ b = 1 ∨ (ph = .p3 ∧ k ≤ 62 ∨ ph = .p4 ∧ k = 63) ∧ b = 4 * k + 6) (hi : i ≤ 2) :
    b + i ≤ 260 ∧ stage (b + i) = i + 1 := by
  have hle : b + i ≤ 260 := by omega
  refine ⟨hle, ?_⟩
  unfold stage
  split_ifs <;> omega

/-- After a pulse that is heard POLL.STD goes on to the deadline, to the next sample, or to the config phase. -/
theorem afterPulse_finished {ph : Phase} {b : Nat} (hph : s.phase = ph)
    (hb : ph = .p2 ∧ b = 1 ∨ (ph = .p3 ∧ s.cyc.toNat ≤ 62 ∨ ph = .p4 ∧ s.cyc.toNat = 63) ∧ b = 4 * s.cyc.toNat + 6) :
    ∃ p k sub, afterPulse ph .finished s = .next (goto p k sub s) ∧ PollLabel w (b + 2 + 1) p k.toNat sub ∧
      isEntry sub = true := by
  rcases hb with ⟨rfl, rfl⟩ | ⟨⟨rfl, hk⟩ | ⟨rfl, hk⟩, rfl⟩
  · have hstays : pollStdP2Done .finished s = .next (goto .p2 s.cyc .deadline s) := by rw [goto, ← hph, pollStdP2Done]
    exact ⟨.p2, s.cyc, .deadline, hstays, .deadline rfl rfl rfl, rfl⟩
  · by_cases hlt : s.cyc.toNat < 62
    · have hsucc : (s.cyc + 1).toNat = s.cyc.toNat + 1 := cyc_succ_toNat (by omega)
      exact ⟨.p3, s.cyc + 1, .start, if_pos hlt, .sample (.inl ⟨rfl, by omega⟩) rfl (by omega), rfl⟩
    · have hm : 4 * s.cyc.toNat + 6 + 2 + 1 = 4 * 63 + 5 := by omega
      exact ⟨.p4, 63, .start, if_neg hlt, .sample (.inr ⟨rfl, rfl⟩) rfl hm, rfl⟩
  · exact ⟨.p5, s.cyc, .first .read, rfl, .idleAgain rfl rfl (by omega), rfl⟩

/-- The polling waiter alone has waits for the two levels. -/
theorem polling_of_pulsePlace {sub : Sub} {pos : WaitPos} (h : pulsePlace w sub = true)
    (hsub : sub = .first pos ∨ sub = .second pos) : w = .polling := by
  cases w with
  | polling => rfl
  | interruptCounted => rcases hsub with rfl | rfl <;> cases h

/-- The interrupt-counted waiter alone has a snapshot and a counter. -/
theorem interruptCounted_of_pulsePlace {sub : Sub} (h : pulsePlace w sub = true)
    (hsub : sub = .snapshot ∨ ∃ pos, sub = .count pos) : w = .interruptCounted := by
  cases w with
  | interruptCounted => rfl
  | polling => rcases hsub with rfl | ⟨pos, rfl⟩ <;> cases h

/-- A `WaitForPulse` whose peer does what it waits for goes on to its next call, and past its last one to what
follows. -/
theorem pollStd_pulse_advances (hw : s.cfg.waiter = w) (h : PollAt w r wait m s) (hdelay : s.delayLeft = 0)
    (hentry : isEntry s.sub = true) {b : Nat}
    (hph : s.phase = .p2 ∧ b = 1 ∨ (s.phase = .p3 ∧ s.cyc.toNat ≤ 62 ∨ s.phase = .p4 ∧ s.cyc.toNat = 63) ∧
      b = 4 * s.cyc.toNat + 6)
    (hsub : pulsePlace w s.sub = true) (hm : m = b + pulseIndex w s.sub) (hfree : PollFree w m s) :
    ∃ t, exec (.pollStd r wait) s = .next t ∧ PollAdvances w r wait m s t := by
  have hstep {out : Out} (hout : pulseStep w s.dl .toggleReq (afterPulse s.phase) s = out) :
      exec (.pollStd r wait) s = out := by
    have hplace : pulsePlace s.cfg.waiter s.sub = true := by rw [hw]; exact hsub
    refine exec_pollStd_at ⟨h.cur, hdelay, rfl, rfl⟩ fun _ _ => ?_
    rw [pollStdStep_pulse rfl (by tauto) hplace, hw, hout]
  have hnext {i : Nat} {sub : Sub} (hi : m = b + i) (hplace : pulsePlace w sub = true)
      (hsub : pulseIndex w sub = i + 1) : PollLabel w (m + 1) s.phase s.cyc.toNat sub := .pulse hph hplace (by omega)
  have hstage {i : Nat} (hi : i ≤ 2) (h : m = b + i) : m ≤ 260 ∧ stage m = i + 1 := by
    rw [h]
    exact stage_of_pulse hph hi
  have hsamples {i : Nat} (hst : stage m = i + 1) (hm : pollSamples m) : False := by
    rw [stage_of_samples hm] at hst
    cases hst
  have hheard {c : PrimCall} (hm : m = b + 2) (hdone : exec (.pollStd r wait) s =
      afterPulse s.phase .finished { s.called c with pwResult := .finished }) :
      ∃ t, exec (.pollStd r wait) s = .next t ∧ PollAdvances w r wait m s t := by
    obtain ⟨hle, hst⟩ := hstage le_rfl hm
    obtain ⟨p, k, sub, hafter, hplace, hentry⟩ :=
      afterPulse_finished (s := { s.called c with pwResult := .finished }) rfl hph
    refine ⟨_, hdone.trans hafter, ?_⟩
    exact h.advances (k := k.toNat) rfl (hm ▸ hplace)
      (.inl ⟨rfl, rfl, pollLine_succ (.inl ⟨hle, by have := lead_le w; omega⟩)⟩) (hentry := hentry)
      (hrx := .inl ⟨rfl, hsamples hst⟩)
      (hbase := fun _ => ⟨fun h1 => by omega, fun _ => rfl⟩)
  cases hs : s.sub with
  | snapshot =>
    obtain rfl := interruptCounted_of_pulsePlace hsub (.inl hs)
    rw [hs] at hm
    obtain ⟨hle, hst⟩ := hstage (i := 0) (by omega) hm
    have hlead : lead .interruptCounted = 1 := rfl
    refine ⟨_, hstep (pulseStep_snapshot hs), ?_⟩
    exact h.advances (k := s.cyc.toNat) rfl (hnext hm rfl rfl) (.inl ⟨rfl, rfl, pollLine_succ (by omega)⟩)
      (hrx := .inl ⟨rfl, hsamples hst⟩) (hbase := fun _ => ⟨fun _ => rfl, fun hne => (hne hst).elim⟩)
  | trigger =>
    rw [hs] at hm
    obtain ⟨hle, hst⟩ := hstage (lead_le w |>.trans one_le_two) hm
    have htrigger : pollLine w (m + 1) = !s.req := by rw [pollLine_trigger hle (by omega), ← h.line, h.req]
    refine ⟨_, hstep (pulseStep_trigger hs), ?_⟩
    have hplace : PollLabel w (m + 1) s.phase s.cyc.toNat (afterTrigger w) := by
      cases w with
      | polling => exact hnext hm rfl rfl
      | interruptCounted => exact hnext hm rfl rfl
    exact h.advances (k := s.cyc.toNat) rfl hplace (.inr ⟨htrigger.symm, rfl⟩)
      (hentry := by cases w <;> rfl)
      (hrx := .inl ⟨rfl, hsamples hst⟩)
      (hbase := fun hw => ⟨fun h1 => by subst hw; simp [lead] at hst; omega, fun _ => rfl⟩)
  | first pos =>
    obtain rfl := polling_of_pulsePlace hsub (.inl hs)
    obtain rfl : pos = .read := by simpa [hs, isEntry] using hentry
    rw [hs] at hm
    obtain ⟨hle, hst⟩ := hstage one_le_two hm
    have hlow := hfree.drop rfl hst
    refine ⟨_, hstep ((pulseStep_first_read hs).trans (by rw [if_neg (by simp [hlow])])), ?_⟩
    exact h.advances (k := s.cyc.toNat) rfl (hnext hm rfl rfl)
      (.inl ⟨rfl, rfl, pollLine_succ (.inl ⟨hle, by rw [hst]; decide⟩)⟩)
      (hrx := .inl ⟨rfl, hsamples hst⟩) (hbase := nofun)
  | second pos =>
    obtain rfl := polling_of_pulsePlace hsub (.inr hs)
    obtain rfl : pos = .read := by simpa [hs, isEntry] using hentry
    rw [hs] at hm
    obtain ⟨hle, hst⟩ := hstage le_rfl hm
    exact hheard hm (hstep (pulseStep_second_read_of_idle (hfree.back rfl hst) hs))
  | count pos =>
    obtain rfl := interruptCounted_of_pulsePlace hsub (.inr ⟨pos, hs⟩)
    obtain rfl : pos = .count := by simpa [hs, isEntry] using hentry
    rw [hs] at hm
    obtain ⟨hle, hst⟩ := hstage le_rfl hm
    exact hheard hm (hstep (pulseStep_count_of_one_edge (hfree.edge rfl hst) hs))
  | _ =>
    rw [hs] at hsub
    cases w <;> cases hsub

/-- With the peer doing what a label waits for, its step goes to the next position. -/
theorem pollStd_advances (hst : StdSide c s) (hinst : isInstance c .std .joystickClient = true)
    (hw : s.cfg.waiter = w) (h : PollAt w r wait m s) (hdelay : s.delayLeft = 0) (hentry : isEntry s.sub = true)
    (hm : m < 303) (hfree : PollFree w m s) :
    ∃ t, exec (.pollStd r wait) s = .next t ∧ PollAdvances w r wait m s t := by
  obtain ⟨hrx, -⟩ := hst.rxbuf_bits hinst
  have hrx : s.rxbuf.N = 64 := hrx
  have htx : s.txbuf.N = 8 := by rw [h.tx]; exact encStdCfg_N r
  have hplace : pulsePlace w (pulseEntry s.cfg.waiter) = true := hw ▸ pulsePlace_pulseEntry _
  have hindex : pulseIndex w (pulseEntry s.cfg.waiter) = 0 := by rw [hw]; cases w <;> rfl
  have hcalls : isEntry (pulseEntry s.cfg.waiter) = true := by rw [hw]; cases w <;> rfl
  have hkeeps (hmod : m % 5 ≠ 2 ∧ m % 5 ≠ 0) (hlo : 261 ≤ m) : pollLine w (m + 1) = pollLine w m :=
    pollLine_succ (.inr ⟨hlo, hmod⟩)
  have hearly (hle : m ≤ 260) (hstage : stage m = 0) : pollLine w (m + 1) = pollLine w m :=
    pollLine_succ (.inl ⟨hle, by omega⟩)
  cases h.label with
  | pulse hph hsub hm => exact pollStd_pulse_advances hw h hdelay hentry hph hsub hm hfree
  | @idle pos hph hsub hm =>
    obtain rfl : pos = .read := by simpa [hsub, isEntry] using hentry
    refine ⟨_, exec_pollStd_at ⟨h.cur, hdelay, hph, hsub⟩ fun hph hsub =>
      (pollStdStep_p1 hph hsub).trans (waitStep_read_of_level (hfree.idle (.inl hm))), ?_⟩
    exact h.advances (k := 0) rfl (.pulse (.inl ⟨rfl, rfl⟩) hplace 
      (by rw [hm]; exact congrArg (1 + ·) hindex.symm))
      (.inl ⟨rfl, rfl, hearly (by omega) (by rw [hm]; rfl)⟩) (hentry := hcalls)
  | deadline hph hsub hm =>
    refine ⟨_, exec_pollStd_at ⟨h.cur, hdelay, hph, hsub⟩ pollStdStep_deadline, ?_⟩
    exact h.advances (k := 0) rfl (.sample (.inl ⟨rfl, by omega⟩) rfl (by omega))
      (.inl ⟨rfl, rfl, hearly (by omega) (by rw [hm]; rfl)⟩)
  | sample hph hsub hm =>
    have hk : s.cyc.toNat = (m - 5) / 4 := by omega
    refine ⟨_, exec_pollStd_at ⟨h.cur, hdelay, rfl, hsub⟩ fun _ hsub =>
      (pollStdStep_sample (by tauto) hsub).trans (pollStdSample_eq hrx (by omega)), ?_⟩
    exact h.advances (k := s.cyc.toNat) rfl (.pulse (.inr ⟨hph, rfl⟩) hplace (by simp only [hindex]; omega))
      (.inl ⟨rfl, rfl, hearly (by omega) (by unfold stage; split_ifs <;> omega)⟩) (hentry := hcalls)
      (hrx := .inr ⟨by rw [← hk], by omega, by omega, by omega⟩)
  | @idleAgain pos hph hsub hm =>
    obtain rfl : pos = .read := by simpa [hsub, isEntry] using hentry
    refine ⟨_, exec_pollStd_at ⟨h.cur, hdelay, hph, hsub⟩ fun hph hsub =>
      (pollStdStep_p5 hph hsub).trans (waitStep_read_of_level (hfree.idle (.inr hm))), ?_⟩
    exact h.advances (k := 0) rfl (.request rfl rfl (by omega) (by omega))
      (.inl ⟨rfl, rfl, hkeeps (by omega) (by omega)⟩)
  | request hph hsub hhi hm =>
    have hlow : pollLine w (m + 1) = false := by rw [pollLine_of_config (by omega)]; exact decide_eq_false (by omega)
    refine ⟨_, exec_pollStd_at ⟨h.cur, hdelay, hph, hsub⟩ pollStdStep_p6_start, ?_⟩
    exact h.advances (k := s.cyc.toNat) rfl (.config (i := 1) hph rfl (by omega) (by omega) hhi (by omega))
      (.inr ⟨hlow.symm, rfl⟩)
  | @config i hph hsub hlo hi hhi hm =>
    have hat : s.standsAt (.pollStd r wait) .p6 (.seq i) := ⟨h.cur, hdelay, hph, hsub⟩
    obtain rfl | rfl | rfl | rfl : i = 1 ∨ i = 2 ∨ i = 3 ∨ i = 4 := by omega
    · have hk : s.cyc.toNat = (m - 262) / 5 := by omega
      refine ⟨_, exec_pollStd_at hat fun hph hsub => (pollStdStep_p6 hph hsub).trans (pollStdP6_bit htx hhi), ?_⟩
      refine h.advances (k := s.cyc.toNat) rfl (.config (i := 2) hph rfl (by omega) (by omega) hhi (by omega))
        (.inl ⟨rfl, rfl, hkeeps (by omega) (by omega)⟩) (hbit := .inr ⟨?_, by omega, by omega⟩)
      rw [← h.tx, ← hk]
      rfl
    · refine ⟨_, exec_pollStd_at hat fun hph hsub => pollStdStep_p6 hph hsub, ?_⟩
      exact h.advances (k := s.cyc.toNat) rfl (.config (i := 3) hph rfl (by omega) (by omega) hhi (by omega))
        (.inl ⟨rfl, rfl, hkeeps (by omega) (by omega)⟩)
    · have hhigh : pollLine w (m + 1) = true := by
        rw [pollLine_of_config (by omega)]; exact decide_eq_true (by omega)
      refine ⟨_, exec_pollStd_at hat fun hph hsub => pollStdStep_p6 hph hsub, ?_⟩
      exact h.advances (k := s.cyc.toNat) rfl (.config (i := 4) hph rfl (by omega) (by omega) hhi (by omega))
        (.inr ⟨hhigh.symm, rfl⟩)
    · by_cases hlast : s.cyc.toNat < 7
      · refine ⟨_, exec_pollStd_at hat fun hph hsub => (pollStdStep_p6 hph hsub).trans (pollStdP6_next hlast), ?_⟩
        exact h.advances (k := s.cyc.toNat + 1) (cyc_succ_toNat (c := s.cyc) (by omega))
          (.request rfl rfl (by omega) (by omega)) (.inl ⟨rfl, rfl, hkeeps (by omega) (by omega)⟩)
      · have hlast : s.cyc.toNat = 7 := by omega
        refine ⟨_, exec_pollStd_at hat fun hph hsub => (pollStdStep_p6 hph hsub).trans (pollStdP6_last hlast), ?_⟩
        exact h.advances (k := s.cyc.toNat) rfl (.lastRequest rfl rfl (by omega))
          (.inl ⟨rfl, rfl, hkeeps (by omega) (by omega)⟩)
  | lastRequest hph hsub hm =>
    have hlow : pollLine w (m + 1) = false := by
      rw [pollLine_of_config (by omega)]
      exact decide_eq_false (by omega)
    refine ⟨_, exec_pollStd_at ⟨h.cur, hdelay, hph, hsub⟩ pollStdStep_p7_start, ?_⟩
    exact h.advances (k := s.cyc.toNat) rfl (.decode hph rfl (by omega)) (.inr ⟨hlow.symm, rfl⟩)
  | decode _ _ hm => omega

/-- POLL.STD starts at position 0. -/
theorem pollStd_starts (hinst : isInstance s.cfg .std .joystickClient = true) (hstrict : s.cfg.stdStrict = false)
    (hdone : s.setupDone = true) (hcur : s.cur = none) (hline : s.outCtl = false) :
    ∃ t, exec (.pollStd r wait) s = .next t ∧ PollAt w r wait 0 t ∧ t.delayLeft = 0 ∧ isEntry t.sub = true ∧
      t.baseCnt = s.baseCnt := by
  refine ⟨_, exec_pollStd_rest hcur hinst hstrict hdone, ⟨rfl, .idle rfl rfl rfl, rfl, hline.trans ?_, hline.symm, ?_⟩,
    rfl, rfl, rfl⟩
  · cases w <;> rfl
  · intro hlo
    omega

/-- Past its last position POLL.STD returns 0, with the state its `RXBUF` stands for, if the checksum is right, and
another code if it is not (rule R209). -/
theorem pollStd_ends (hst : StdSide c s) (hinst : isInstance c .std .joystickClient = true)
    (h : PollAt w r wait 303 s) (hdelay : s.delayLeft = 0) :
    ∃ t, exec (.pollStd r wait) s = .next t ∧ t.cur = none ∧ (t.result = .code 0 → t.outState = stdStateOf c s.rxbuf) ∧
      (rawByte s.rxbuf 7 = xorOfSeven s.rxbuf → t.result = .code 0) := by
  obtain ⟨hrx, -⟩ := hst.rxbuf_bits hinst
  cases h.label with
  | decode hph hsub =>
    have hstep := exec_pollStd_at ⟨h.cur, hdelay, hph, hsub⟩ fun hph hsub =>
      (pollStdStep_p7 hph hsub).trans (pollStdP7_ends hrx)
    by_cases hsum : rawByte s.rxbuf 7 = xorOfSeven s.rxbuf
    · rw [if_pos hsum] at hstep
      exact ⟨_, hstep, rfl, fun _ => congrArg (stdStateOf · s.rxbuf) hst.cfg, fun _ => rfl⟩
    · rw [if_neg hsum] at hstep
      refine ⟨_, hstep, rfl, fun hzero => ?_, fun h => (hsum h).elim⟩
      exact (failureCode_ne_zero (hst.cfg ▸ hst.wf) (by simpa [pollStdEnds, finishCode] using hzero)).elim
  | pulse =>
    have hindex := pulseIndex_le w s.sub
    omega
  | _ => omega

/-! ## Where a step leads -/

/-- Where a step of `WaitForPulse` leads: it makes its first calls, or hears what its place waits for, or stays at
that place, or has a result that is not `Finished`. -/
inductive PulseGoes (w : Waiter) (done : PulseResult → State → Out) (s t : State) : Prop where
  | calls (hsub : s.sub = .snapshot ∨ s.sub = .trigger)
  | drop (hw : w = .polling) (hsub : s.sub = .first .read) (hlevel : s.wCtlIn = false)
  | back (hw : w = .polling) (hsub : s.sub = .second .read) (hlevel : s.wCtlIn = true)
  | edge (hw : w = .interruptCounted) (hsub : s.sub = .count .count) (hone : s.edgeCnt - s.baseCnt = 1)
  | stays {cs : List PrimCall} {l : Option Word} {d : Nat} {sub : Sub} (hplace : pulsePlace w sub = true)
      (hindex : pulseIndex w sub = pulseIndex w s.sub)
      (ht : t = { s with calls := cs, lastRead := l, delayLeft := d, sub := sub })
  | fails {cs : List PrimCall} {l : Option Word} {p : PulseResult} (hp : p ≠ .finished)
      (hdone : done p { s with calls := cs, lastRead := l, pwResult := p } = .next t)

theorem pulseStep_goes {tr : Trigger} {done : PulseResult → State → Out}
    (h : pulseStep w s.dl tr done s = .next t) : PulseGoes w done s t := by
  rcases pulseStep_next h with ⟨hsub, -⟩ | ⟨hsub, -⟩ | ⟨rfl, pos, hsub, h⟩ | ⟨rfl, pos, hsub, h⟩ | ⟨rfl, pos, hsub, h⟩
  · exact .calls (.inl hsub)
  · exact .calls (.inr hsub)
  · have hindex (q : WaitPos) : pulseIndex .polling (.first q) = pulseIndex .polling s.sub := by rw [hsub]; rfl
    rcases waitStep_next h with ⟨rfl, hlevel, -⟩ | ⟨-, -, rfl⟩ | ⟨-, -, h⟩ | ⟨-, -, rfl⟩ | ⟨-, rfl⟩
    · exact .drop rfl hsub hlevel
    · exact .stays rfl (hindex _) rfl
    · exact .fails (by decide) h
    · exact .stays rfl (hindex _) rfl
    · exact .stays rfl (hindex _) rfl
  · have hindex (q : WaitPos) : pulseIndex .polling (.second q) = pulseIndex .polling s.sub := by rw [hsub]; rfl
    rcases waitStep_next h with ⟨rfl, hlevel, -⟩ | ⟨-, -, rfl⟩ | ⟨-, -, h⟩ | ⟨-, -, rfl⟩ | ⟨-, rfl⟩
    · exact .back rfl hsub hlevel
    · exact .stays rfl (hindex _) rfl
    · exact .fails (by decide) h
    · exact .stays rfl (hindex _) rfl
    · exact .stays rfl (hindex _) rfl
  · have hindex (q : CountPos) : pulseIndex .interruptCounted (.count q) = pulseIndex .interruptCounted s.sub := by
      rw [hsub]; rfl
    rcases countStep_next h with ⟨-, -, rfl⟩ | ⟨rfl, hone, -⟩ | ⟨-, -, -, h⟩ | ⟨-, -, rfl⟩ | ⟨-, -, rfl⟩ | ⟨-, h⟩ |
      ⟨-, rfl⟩
    · exact .stays rfl (hindex _) rfl
    · exact .edge rfl hsub hone
    · exact .fails (by decide) h
    · exact .stays rfl (hindex _) rfl
    · exact .stays rfl (hindex _) rfl
    · exact .fails (by cases s.wCtlIn <;> decide) h
    · exact .stays rfl (hindex _) rfl

/-- A pulse that is not heard in full fails (rules R222, R223). -/
theorem afterPulse_fails {ph : Phase} {p : PulseResult} (hp : p ≠ .finished) (h : afterPulse ph p s = .next t) :
    ∃ f, beginAbort f s = .next t := by
  cases p with
  | finished => exact (hp rfl).elim
  | _ => unfold afterPulse at h; split at h <;> exact ⟨_, h⟩

/-- Where a step of POLL.STD leads: it stays, it goes to the next position with the peer having done what it waits
for, it fails, or past its last position it returns. -/
inductive PollGoes (w : Waiter) (r : StdConfig) (wait : Word) (m : Nat) (s t : State) : Prop where
  | stays (h : PollAt w r wait m t) (hrx : t.rxbuf = s.rxbuf) (hbase : t.baseCnt = s.baseCnt)
  | on (h : PollAdvances w r wait m s t) (hfree : PollFree w m s)
  | fails (h : Failed (.pollStd r wait) t)
  | ends (hm : m = 303) (hcur : t.cur = none) (hstate : t.result = .code 0 → t.outState = stdStateOf s.cfg s.rxbuf)

/-- Outside its waits there is nothing POLL.STD waits for. -/
theorem pollFree_of_noWait (hidle : m ≠ 0 ∧ m ≠ 261) (hstage : stage m ≤ 1 ∨ w = .interruptCounted ∧ stage m ≤ 2) :
    PollFree w m s := by
  constructor <;> grind

theorem pollStd_goes (hst : StdSide c s) (hinst : isInstance c .std .joystickClient = true) (hw : s.cfg.waiter = w)
    (hs : PollAt w r wait m s) (h : exec (.pollStd r wait) s = .next t) : PollGoes w r wait m s t := by
  by_cases hdelay : s.delayLeft = 0
  case neg =>
    have hheld : exec (.pollStd r wait) s = .next s := running_held hs.cur (Nat.pos_of_ne_zero hdelay)
    obtain rfl := Host.Outcome.next.inj (hheld.symm.trans h)
    exact .stays hs rfl rfl
  have advances (hentry : isEntry s.sub = true) (hm : m < 303) (hfree : PollFree w m s) : PollGoes w r wait m s t := by
    obtain ⟨t', hnext, hadv⟩ := pollStd_advances hst hinst hw hs hdelay hentry hm hfree
    obtain rfl := Host.Outcome.next.inj (hnext.symm.trans h)
    exact .on hadv hfree
  have wait_goes {pos : WaitPos} {reached : State → Out} {f : FrameFailure} (hsub : s.sub = .first pos)
      (hwait : exec (.pollStd r wait) s = waitStep .ctlIn true s.dl pos .first reached (beginAbort f) s)
      (hm : m = 0 ∨ m = 261) (hlabel : ∀ q, PollLabel w m s.phase s.cyc.toNat (.first q)) :
      PollGoes w r wait m s t := by
    rcases waits_cases hs.cur (hst.cfg ▸ hst.wf) hwait h with ⟨rfl, hlevel⟩ | ⟨cs, l, d, q, rfl⟩ | ⟨hfail, -⟩
    · refine advances (by rw [hsub]; rfl) (by omega) ⟨fun _ => hlevel, ?_, ?_, ?_⟩ <;>
        rcases hm with rfl | rfl <;> exact fun _ h => by cases h
    · exact .stays ⟨hs.cur, hlabel q, hs.tx, hs.line, hs.req, hs.data⟩ rfl rfl
    · exact .fails hfail
  cases hs.label with
  | idle hph hsub hm =>
    exact wait_goes hsub (exec_pollStd_at ⟨hs.cur, hdelay, hph, hsub⟩ pollStdStep_p1) (.inl hm) fun q =>
      .idle hph rfl hm
  | idleAgain hph hsub hm =>
    exact wait_goes hsub (exec_pollStd_at ⟨hs.cur, hdelay, hph, hsub⟩ pollStdStep_p5) (.inr hm) fun q =>
      .idleAgain hph rfl hm
  | @pulse b hph hsub hm =>
    have hle := pulseIndex_le w s.sub
    obtain ⟨hlt, hstage⟩ := stage_of_pulse hph hle
    rw [← hm] at hlt hstage
    have hplace : pulsePlace s.cfg.waiter s.sub = true := by rw [hw]; exact hsub
    have hstep : exec (.pollStd r wait) s = pulseStep w s.dl .toggleReq (afterPulse s.phase) s := by
      refine exec_pollStd_at ⟨hs.cur, hdelay, rfl, rfl⟩ fun _ _ => ?_
      rw [pollStdStep_pulse rfl (by tauto) hplace, hw]
    cases pulseStep_goes (hstep.symm.trans h) with
    | calls hcalls =>
      have hentry : isEntry s.sub = true := by rcases hcalls with hat | hat <;> rw [hat] <;> rfl
      refine advances hentry (by omega) (pollFree_of_noWait (by omega) ?_)
      rcases hcalls with hat | hat <;> rw [hat] at hstage
      · exact .inl hstage.le
      · cases w with
        | polling => exact .inl hstage.le
        | interruptCounted => exact .inr ⟨rfl, hstage.le⟩
    | drop hwaiter hat hlevel =>
      subst hwaiter
      have hstage : stage m = 2 := by rw [hstage, hat]; rfl
      exact advances (by rw [hat]; rfl) (by omega) ⟨by omega, fun _ _ => hlevel, fun _ _ => by omega, nofun⟩
    | back hwaiter hat hlevel =>
      subst hwaiter
      have hstage : stage m = 3 := by rw [hstage, hat]; rfl
      exact advances (by rw [hat]; rfl) (by omega) ⟨by omega, fun _ _ => by omega, fun _ _ => hlevel, nofun⟩
    | edge hwaiter hat hone =>
      subst hwaiter
      exact advances (by rw [hat]; rfl) (by omega) ⟨by omega, nofun, nofun, fun _ _ => hone⟩
    | stays hsub' hindex ht =>
      subst ht
      exact .stays ⟨hs.cur, .pulse hph hsub' (by rw [hindex]; exact hm), hs.tx, hs.line, hs.req, hs.data⟩ rfl rfl
    | fails hp hdone =>
      obtain ⟨f, hf⟩ := afterPulse_fails hp hdone
      obtain rfl := beginAbort_next hf
      exact .fails (.abort hs.cur (failureCode_ne_zero (hst.cfg ▸ hst.wf)) (.inl rfl))
  | deadline hph hsub hm =>
    exact advances (by rw [hsub]; rfl) (by omega) (pollFree_of_noWait (by omega) (.inl (by rw [hm]; decide)))
  | sample hph hsub hm =>
    have hstage : stage m = 0 := stage_of_samples ⟨by omega, by omega, by omega⟩
    exact advances (by rw [hsub]; rfl) (by omega) (pollFree_of_noWait (by omega) (.inl (by omega)))
  | decode hph hsub hm =>
    subst hm
    obtain ⟨t', hnext, hcur, hstate, -⟩ := pollStd_ends hst hinst hs hdelay
    obtain rfl := Host.Outcome.next.inj (hnext.symm.trans h)
    exact .ends rfl hcur (hst.cfg ▸ hstate)
  | request hph hsub | config hph hsub | lastRequest hph hsub =>
    have hstage : stage m = 0 := by unfold stage; split_ifs <;> omega
    exact advances (by rw [hsub]; rfl) (by omega) (pollFree_of_noWait (by omega) (.inl (by omega)))

/-- POLL.STD only reads the counter. -/
theorem edges_of_wrote (h : Wrote (.pollStd r wait) s t) :
    t.edgeCnt = s.edgeCnt ∧ t.edgePending = s.edgePending ∧ t.attached = s.attached := by
  have hedges := h.edges
  have hattached := h.attached
  simpa [not_or, and_assoc] using And.intro hedges hattached

end

end Sys2Proof.Machine
end

section
/-! Two Std engines on a loopback (O59): what a turn of either side keeps, whatever the other does. -/

namespace Sys2Proof.Machine
open Sys2Proof.Claims

/-! ## The two sides and their wires -/

/-- A Std frame: the two configurations, the records each side sends and the waits HOST asks for. -/
structure StdFrame where
  a : Config
  b : Config
  st : JoystickState
  r : StdConfig
  waitA : Word
  waitB : Word
  instA : isInstance a .std .throttleClient = true
  instB : isInstance b .std .joystickClient = true

namespace StdFrame
variable (f : StdFrame)

def sends : Instr := .sendStd f.st f.waitA
def polls : Instr := .pollStd f.r f.waitB
def waiter : Waiter := f.b.waiter

end StdFrame

/-- What stays as it is at a side of a loopback: the side's own part, HOST's operands, and that it is set up. -/
structure StdStation (c : Config) (code : Byte) (i : Instr) (s : State) : Prop extends StdSide c s where
  call : decode (.op code s.args) = .ok i
  done : s.setupDone = true

section
variable {c : Config} {code : Byte} {i j : Instr} {s t : State}

theorem StdStation.aside (h : StdStation c code i s) (hinv : t.inv = true) (hside : Aside s t) :
    StdStation c code i t := by
  refine ⟨h.toStdSide.aside hinv hside, ?_, ?_⟩ <;> rw [hside]
  · exact h.call
  · exact h.done

theorem StdStation.of_exec (h : StdStation c code i s) (hj : isDataPlane j = true)
    (hcur : s.cur = none ∨ s.cur = some j) (hexec : exec j s = .next t) : StdStation c code i t := by
  have w := exec_wrote hexec
  exact ⟨h.toStdSide.exec hj hcur hexec, w.args ▸ h.call,
    (w.setupDone_eq (setup_ne_dataPlane hj).1).trans h.done⟩

end

/-- The two sides are stations, and the wires connect them. -/
structure StdWired (f : StdFrame) (s u : State) : Prop where
  here : StdStation f.a 0x63 f.sends s
  there : StdStation f.b 0x62 f.polls u
  ctlIn : s.wCtlIn = u.outCtl
  dataIn : s.wDataIn = u.outData
  ctlOut : u.wCtlIn = s.outCtl
  dataOut : u.wDataIn = s.outData

section
variable {f : StdFrame} {s t u v : State}

theorem connect_wires (src dst : State) (h : dirsSet src = true) :
    (connect src dst).wCtlIn = src.outCtl ∧ (connect src dst).wDataIn = src.outData := by
  rw [connect_eq h]
  exact ⟨rfl, rfl⟩

theorem connect_outs (src dst : State) :
    (connect src dst).outCtl = dst.outCtl ∧ (connect src dst).outData = dst.outData := by
  rw [connect_aside src dst]
  exact ⟨rfl, rfl⟩

/-- A turn of the throttle's side, then the wires. -/
theorem StdWired.moveA (h : StdWired f s u) (ht : StdStation f.a 0x63 f.sends t) (hctl : t.wCtlIn = s.wCtlIn)
    (hdata : t.wDataIn = s.wDataIn) : StdWired f t (connect t u) := by
  obtain ⟨hctl', hdata'⟩ := connect_wires t u ht.dirs
  obtain ⟨houtCtl, houtData⟩ := connect_outs t u
  exact ⟨ht, h.there.aside (connect_inv ht.dirs h.there.inv) (connect_aside t u),
    hctl.trans (h.ctlIn.trans houtCtl.symm), hdata.trans (h.dataIn.trans houtData.symm), hctl', hdata'⟩

/-- A turn of the joystick's side, then the wires. -/
theorem StdWired.moveB (h : StdWired f s u) (hv : StdStation f.b 0x62 f.polls v) (hctl : v.wCtlIn = u.wCtlIn)
    (hdata : v.wDataIn = u.wDataIn) : StdWired f (connect v s) v := by
  obtain ⟨hctl', hdata'⟩ := connect_wires v s hv.dirs
  obtain ⟨houtCtl, houtData⟩ := connect_outs v s
  exact ⟨h.here.aside (connect_inv hv.dirs h.here.inv) (connect_aside v s), hv, hctl', hdata',
    hctl.trans (h.ctlOut.trans houtCtl.symm), hdata.trans (h.dataOut.trans houtData.symm)⟩

end

/-! ## What the joystick's side has heard -/

theorem heard_succ (m : Nat) : heard (m + 1) = heard m + if stage m = 3 then 1 else 0 := by
  unfold heard stage
  grind

/-- A `WaitForPulse` goes on to its third call, and leaves it when it has heard the pulse. -/
theorem stage_succ (m : Nat) : stage m = 0 ∧ stage (m + 1) ≤ 1 ∨ stage m = 1 ∧ stage (m + 1) = 2 ∨
    stage m = 2 ∧ stage (m + 1) = 3 ∨ stage m = 3 ∧ stage (m + 1) = 0 := by
  unfold stage
  split_ifs <;> omega

theorem drops_succ (n : Nat) : drops (n + 1) = drops n + if sendLine n && !sendLine (n + 1) then 1 else 0 := by
  simp only [drops, sendLine, Bool.and_eq_true, Bool.not_eq_true', decide_eq_true_eq, decide_eq_false_iff_not]
  split_ifs <;> omega

/-- At position `m` the joystick's side has not heard more pulses than the `g` that the throttle's side has begun; the
interrupt-counted waiter's edges are among them. -/
structure Hears (w : Waiter) (m g : Nat) (u : State) : Prop where
  le : heard m ≤ g
  back : w = .polling → stage m = 3 → heard m + 1 ≤ g
  level : w = .polling → stage m ≠ 3 → heard m = g → u.wCtlIn = true
  pending : w = .interruptCounted → heard m + u.edgePending ≤ g
  counted : w = .interruptCounted → 2 ≤ stage m → heard m + (u.edgeCnt - u.baseCnt).toNat + u.edgePending ≤ g

section
variable {w : Waiter} {r : StdConfig} {wait : Word} {m g : Nat} {s t u v : State}

theorem Hears.of_eq (h : Hears w m g u) (hctl : v.wCtlIn = u.wCtlIn) (hcnt : v.edgeCnt = u.edgeCnt)
    (hpending : v.edgePending = u.edgePending) (hbase : v.baseCnt = u.baseCnt) : Hears w m g v := by
  obtain ⟨hle, hback, hlevel, hpend, hcounted⟩ := h
  constructor <;> simp_all

/-- The peer's turn: its pulse may begin. -/
theorem Hears.of_connect (h : Hears w m g u) (hwire : u.wCtlIn = s.outCtl) (hdirs : dirsSet t = true) :
    Hears w m (g + if s.outCtl && !t.outCtl then 1 else 0) (connect t u) := by
  obtain ⟨hle, hback, hlevel, hpend, hcounted⟩ := h
  have hedge : (connect t u).edgePending ≤ u.edgePending + if s.outCtl && !t.outCtl then 1 else 0 := by
    rw [connect_eq hdirs, ← hwire]
    show (if u.attached && u.wCtlIn && !t.outCtl then u.edgePending + 1 else u.edgePending) ≤ _
    grind
  have hcnt : (connect t u).edgeCnt = u.edgeCnt ∧ (connect t u).baseCnt = u.baseCnt := by
    rw [connect_eq hdirs]
    exact ⟨rfl, rfl⟩
  obtain ⟨hctl, -⟩ := connect_wires t u hdirs
  refine ⟨by omega, fun hw hm => (hback hw hm).trans (Nat.le_add_right _ _), fun hw hm hg => ?_, fun hw => ?_,
    fun hw hm => ?_⟩
  · rw [hctl]
    have hlevel := hlevel hw hm
    grind
  · have := hpend hw
    omega
  · have := hcounted hw hm
    rw [hcnt.1, hcnt.2]
    omega

/-- EDGECB moves a pending edge into the counter. -/
theorem Hears.edge (h : Hears w m g u) (hexec : execEdgeCb u = .next v) : Hears w m g v := by
  obtain rfl := Host.Outcome.next.inj ((execEdgeCb_next u).symm.trans hexec)
  split
  case isFalse => exact h
  case isTrue hpos =>
    obtain ⟨hle, hback, hlevel, hpend, hcounted⟩ := h
    refine ⟨hle, hback, hlevel, fun hw => ?_, fun hw hm => ?_⟩
    · have := hpend hw
      show heard m + (u.edgePending - 1) ≤ g
      omega
    · have := hcounted hw hm
      show heard m + (u.edgeCnt + 1 - u.baseCnt).toNat + (u.edgePending - 1) ≤ g
      bv_omega

/-- A step of POLL.STD that goes on with what it waited for. -/
theorem Hears.on (h : Hears w m g u) (hadv : PollAdvances w r wait m u v) (hfree : PollFree w m u)
    (hctl : v.wCtlIn = u.wCtlIn) (hedges : v.edgeCnt = u.edgeCnt ∧ v.edgePending = u.edgePending) :
    Hears w (m + 1) g v := by
  obtain ⟨hle, hback, hlevel, hpend, hcounted⟩ := h
  obtain ⟨hcnt, hpending⟩ := hedges
  have hnext := stage_succ m
  have hsucc := heard_succ m
  obtain ⟨-, hdrop, hup, hedge⟩ := hfree
  cases w with
  | polling =>
    refine ⟨?_, fun _ hm => ?_, fun _ hm hg => ?_, nofun, nofun⟩
    · grind
    · grind
    · grind
  | interruptCounted =>
    obtain ⟨hcapture, hkeep⟩ := hadv.base rfl
    have hone (h3 : stage m = 3) : heard m + 1 + u.edgePending ≤ g := by
      have hcounted := hcounted rfl (by omega)
      rwa [hedge rfl h3] at hcounted
    refine ⟨?_, nofun, nofun, fun _ => ?_, fun _ hm => ?_⟩
    · grind
    · grind
    · have hpend := hpend rfl
      rw [hcnt, hpending]
      rcases hnext with ⟨h0, h1⟩ | ⟨h0, -⟩ | ⟨h0, -⟩ | ⟨h0, h1⟩
      · omega
      · rw [hcapture h0, BitVec.sub_self, hsucc, h0]
        exact hpend
      · rw [hkeep (by omega), hsucc, h0]
        exact hcounted rfl h0.ge
      · omega

end
end Sys2Proof.Machine
end

section
/-! What holds of a Std loopback all along (O59): where each side stands, and that the state bits sampled so far are
those that are sent. -/

namespace Sys2Proof.Machine
open Sys2Proof.Claims

/-! ## Where a side stands -/

/-- The throttle's side no longer pulses: it is past its slots, or it aborts or has returned. -/
def Quiet (f : StdFrame) (s : State) : Prop :=
  s.outCtl = true ∧ (s.cur = none ∨ Failed f.sends s ∨ ∃ n, 326 ≤ n ∧ SendAt f.st f.waitA n s)

/-- Where SEND.STD's side stands with `g` pulses begun, while POLL.STD's side has asked for `a`. -/
inductive Sends (f : StdFrame) (called : Prop) (a g : Nat) (s : State) : Prop where
  | idle (hcall : ¬called) (hcur : s.cur = none) (hline : s.outCtl = true) (hg : g = 0)
  | runs {n : Nat} (hcall : called) (h : SendAt f.st f.waitA n s) (hn : n ≤ 325) (hg : g = drops n) (ha : prompts n ≤ a)
  | past (hcall : called) (h : Quiet f s) (hg : g = 65) (ha : a = 65)

/-- Where POLL.STD's side stands at position `m`. -/
inductive Polls (f : StdFrame) (called : Prop) (m : Nat) (u : State) : Prop where
  | idle (hcall : ¬called) (hcur : u.cur = none) (hline : u.outCtl = false) (hm : m = 0)
  | runs (hcall : called) (h : PollAt f.waiter f.r f.waitB m u)

/-- The state bits sampled before position `m` are those of the record. -/
def StateBits (f : StdFrame) (m : Nat) (buf : BitBuffer) : Prop :=
  ∀ k < 64, 4 * k + 5 < m → rawBit buf k = rawBit (encStdState f.st) k

/-- Both sides on a loopback in step. What POLL.STD has sampled is the record, unless SEND.STD has given up before its
last pulse; then POLL.STD will not hear that one. -/
structure StdLinked (f : StdFrame) (ca cb : Prop) (s u : State) : Prop where
  wired : StdWired f s u
  stand : ∃ m g, Hears f.waiter m g u ∧ Polls f cb m u ∧
    ((Sends f ca (asked f.waiter m) g s ∧ StateBits f m u.rxbuf) ∨ (ca ∧ Quiet f s ∧ g < 65))

/-- POLL.STD's side aborts, or it has returned, and with a 0 its state is the record. -/
def PollOver (f : StdFrame) (u : State) : Prop :=
  Failed f.polls u ∨ (u.cur = none ∧ (u.result = .code 0 → u.outState = f.st))

/-- What holds of a Std loopback all along. -/
def StdTrack (f : StdFrame) (ca cb : Prop) (l : Link) : Prop :=
  (cb ∧ PollOver f l.b) ∨ StdLinked f ca cb l.a l.b

section
variable {f : StdFrame} {ca cb called : Prop} {i : Instr} {s t u v : State} {m g a : Nat}

theorem Quiet.aside (h : Quiet f s) (hside : Aside s t) : Quiet f t := by
  obtain ⟨hline, hcur⟩ := h
  refine ⟨by rw [hside]; exact hline, ?_⟩
  rcases hcur with hcur | hfail | ⟨n, hn, hat⟩
  · exact .inl (by rw [hside]; exact hcur)
  · exact .inr (.inl (hside.failed hfail))
  · exact .inr (.inr ⟨n, hn, hat.aside hside⟩)

theorem Sends.aside (h : Sends f called a g s) (hside : Aside s t) : Sends f called a g t := by
  cases h with
  | idle hcall hcur hline hg => exact .idle hcall (by rw [hside]; exact hcur) (by rw [hside]; exact hline) hg
  | runs hcall hat hn hg ha => exact .runs hcall (hat.aside hside) hn hg ha
  | past hcall hquiet hg ha => exact .past hcall (hquiet.aside hside) hg ha

theorem Polls.aside (h : Polls f called m u) (hside : Aside u v) : Polls f called m v := by
  cases h with
  | idle hcall hcur hline hm => exact .idle hcall (by rw [hside]; exact hcur) (by rw [hside]; exact hline) hm
  | runs hcall hat => exact .runs hcall (hat.aside hside)

theorem Polls.line (h : Polls f called m u) : u.outCtl = pollLine f.waiter m := by
  cases h with
  | idle _ _ hline hm =>
    rw [hline, hm]
    cases f.waiter <;> rfl
  | runs _ hat => exact hat.line

theorem PollOver.aside (h : PollOver f u) (hside : Aside u v) : PollOver f v := by
  rcases h with hfail | ⟨hcur, hstate⟩
  · exact .inl (hside.failed hfail)
  · refine .inr ⟨?_, ?_⟩ <;> rw [hside]
    · exact hcur
    · exact hstate

/-! ## Steps of the throttle's side -/

/-- An abort goes on to its end; its writes leave the pulse line as it is, or at its idle level. -/
theorem failed_step {r : State → Option TurnAway} {own : State → Out}
    (hop : ∀ s, exec i s = running (r s) i s fun s => orAbort s own) (hs : Failed i s) (hcur : s.cur = some i)
    (h : exec i s = .next t) : Failed i t ∧ (t.outCtl = s.outCtl ∨ t.outCtl = idleCtl s.cfg) := by
  rw [hop] at h
  obtain ⟨-, code, hcode, hsub⟩ | ⟨hnone, -⟩ := hs
  · by_cases hdelay : s.delayLeft = 0
    · rw [running_on hcur hdelay] at h
      rcases orAbort_next h with ⟨code', hsub', rfl⟩ | ⟨code', hsub', rfl⟩ | ⟨hctl, hdata, -⟩
      · obtain rfl : code' = code := by simpa [hsub'] using hsub
        exact ⟨.abort hcur hcode (.inr rfl), .inr rfl⟩
      · obtain rfl : code' = code := by simpa [hsub'] using hsub
        exact ⟨.inr ⟨rfl, code', hcode, rfl⟩, .inl rfl⟩
      · exact (hsub.elim (hctl code) (hdata code)).elim
    · rw [running_held hcur (Nat.pos_of_ne_zero hdelay)] at h
      obtain rfl := Host.Outcome.next.inj h
      exact ⟨.abort hcur hcode hsub, .inl rfl⟩
  · cases hnone.symm.trans hcur

theorem sendLine_of_le {n : Nat} (h : 326 ≤ n) : sendLine n = true := decide_eq_true (by omega)

/-- Once quiet, the throttle's side stays so. -/
theorem Quiet.step (hst : StdSide f.a s) (h : Quiet f s) (hcur : s.cur = some i) (hexec : exec i s = .next t) :
    i = f.sends ∧ Quiet f t := by
  obtain ⟨hline, hnone | hfail | ⟨n, hn, hat⟩⟩ := h
  · cases hnone.symm.trans hcur
  · obtain rfl : i = f.sends := by
      rcases hfail with ⟨hcur', -⟩ | ⟨hnone, -⟩
      · exact Option.some.inj (hcur.symm.trans hcur')
      · cases hnone.symm.trans hcur
    obtain ⟨hfail', hline'⟩ := failed_step (fun _ => rfl) hfail hcur hexec
    have hidle : idleCtl s.cfg = true := idleCtl_stdTc (hst.cfg ▸ f.instA)
    exact ⟨rfl, hline'.elim (·.trans hline) (·.trans hidle), .inr (.inl hfail')⟩
  · obtain rfl : i = f.sends := Option.some.inj (hcur.symm.trans hat.cur)
    refine ⟨rfl, ?_⟩
    cases sendStd_goes hst f.instA hat hexec with
    | stays hat' => exact ⟨hat'.line.trans (sendLine_of_le hn), .inr (.inr ⟨n, hn, hat'⟩)⟩
    | on hat' =>
      exact ⟨hat'.line.trans (sendLine_of_le (by omega)), .inr (.inr ⟨n + 1, by omega, hat'⟩)⟩
    | fails hfail hline => exact ⟨hline, .inr (.inl hfail)⟩
    | ends _ hcur hline => exact ⟨hline, .inl hcur⟩

theorem asked_le (w : Waiter) (m : Nat) : asked w m ≤ 65 := by
  unfold asked heard stage
  split_ifs <;> omega

theorem asked_le_succ (w : Waiter) (m : Nat) : asked w m ≤ asked w (m + 1) := by
  by_cases hm : m ≤ 260
  · rw [asked_succ hm]
    exact Nat.le_add_right _ _
  · rw [asked_config (m := m + 1) (by omega)]
    exact asked_le w m

theorem Sends.mono {a' : Nat} (h : Sends f called a g s) (hle : a ≤ a') (htop : a' ≤ 65) : Sends f called a' g s := by
  cases h with
  | idle hcall hcur hline hg => exact .idle hcall hcur hline hg
  | runs hcall hat hn hg ha => exact .runs hcall hat hn hg (ha.trans hle)
  | past hcall hquiet hg ha => exact .past hcall hquiet hg (by omega)

/-- The throttle's side passes a prompt only when it was made: the line has the level of an odd or of an even toggle.
-/
theorem prompts_succ_le {w : Waiter} {n : Nat} (h : prompts n ≤ asked w m) (hn : n ≤ 325)
    (hwait : ∀ v, sendAwaits n v → pollLine w m = v) : prompts (n + 1) ≤ asked w m := by
  by_cases hm : m ≤ 261
  · rw [pollLine_of_le hm] at hwait
    have hfirst (hzero : n = 0) : asked w m % 2 = 1 := by simpa using hwait true (.inl ⟨hzero, rfl⟩)
    have hlater (hlo : 6 ≤ n) (hhi : n ≤ 321) (hmod : n % 5 = 1) : asked w m % 2 = 1 ↔ n / 5 % 2 = 0 := by
      simpa using hwait _ (.inr (.inl ⟨hlo, hhi, hmod, rfl⟩))
    unfold prompts at *
    split_ifs at * <;> omega
  · rw [asked_config (by omega)]
    unfold prompts
    split_ifs <;> omega

/-- Where a step leads the throttle's side, with the pulse it may begin. -/
theorem Sends.step (hst : StdSide f.a s) (h : Sends f called (asked f.waiter m) g s)
    (hwire : s.wCtlIn = pollLine f.waiter m) (hcur : s.cur = some i) (hexec : exec i s = .next t) :
    i = f.sends ∧ called ∧ (Sends f called (asked f.waiter m) (g + if s.outCtl && !t.outCtl then 1 else 0) t ∨
      Quiet f t ∧ g + (if s.outCtl && !t.outCtl then 1 else 0) < 65) := by
  have hstill {x : Bool} (ht : t.outCtl = true) : (if x && !t.outCtl then 1 else 0) = 0 := by simp [ht]
  cases h with
  | idle _ hnone => cases hnone.symm.trans hcur
  | past hcall hquiet hg ha =>
    obtain ⟨hi, hquiet'⟩ := hquiet.step hst hcur hexec
    rw [hstill hquiet'.1]
    exact ⟨hi, hcall, .inl (.past hcall hquiet' hg ha)⟩
  | @runs n hcall hat hn hg ha =>
    obtain rfl : i = f.sends := Option.some.inj (hcur.symm.trans hat.cur)
    refine ⟨rfl, hcall, ?_⟩
    cases sendStd_goes hst f.instA hat hexec with
    | stays hat' =>
      refine .inl (.runs hcall hat' hn ?_ ha)
      rw [hat.line, hat'.line, hg]
      simp
    | on hat' hwait =>
      have hdrops : g + (if s.outCtl && !t.outCtl then 1 else 0) = drops (n + 1) := by
        rw [hat.line, hat'.line, drops_succ, hg]
      have hprompts := prompts_succ_le ha hn fun v hv => hwire ▸ hwait v hv
      rw [hdrops]
      rcases hn.eq_or_lt with rfl | hn
      · refine .inl (.past hcall ⟨hat'.line.trans rfl, .inr (.inr ⟨326, le_rfl, hat'⟩)⟩ rfl ?_)
        exact (asked_le _ _).antisymm hprompts
      · exact .inl (.runs hcall hat' hn rfl hprompts)
    | fails hfail hline hn' =>
      rw [hstill hline]
      refine .inr ⟨⟨hline, .inr (.inl hfail)⟩, ?_⟩
      have hn' : ¬(4 ≤ n ∧ n ≤ 325 ∧ (n % 5 = 4 ∨ n % 5 = 0)) := of_decide_eq_true hn'
      rw [hg]
      unfold drops
      omega
    | ends hn' => omega

/-! ## Steps of the joystick's side -/

/-- While POLL.STD samples, SEND.STD is at the slot of the bit it is to sample. -/
theorem slot_of_sample {w : Waiter} {n : Nat} (hg : heard m ≤ drops n) (ha : prompts n ≤ asked w m)
    (hm : pollSamples m) : 3 ≤ n ∧ n ≤ 322 ∧ (n - 3) / 5 = (m - 5) / 4 := by
  rw [asked, stage_of_samples hm, if_neg (by omega), Nat.add_zero] at ha
  obtain ⟨hlo, hhi, hmod⟩ := hm
  unfold heard drops at hg
  unfold heard prompts at ha
  split_ifs at * <;> omega

/-- So the throttle's side drives that bit. -/
theorem Sends.data_of_sample (h : Sends f called (asked f.waiter m) g s) (hg : heard m ≤ g) (hm : pollSamples m) :
    s.outData = rawBit (encStdState f.st) ((m - 5) / 4) := by
  cases h with
  | runs _ hat _ hdrops ha =>
    obtain ⟨hlo, hhi, hbit⟩ := slot_of_sample (hdrops ▸ hg) ha hm
    rw [hat.data hlo hhi, hbit]
  | idle | past =>
    obtain ⟨hlo, hhi, hmod⟩ := id hm
    have hstage := stage_of_samples hm
    unfold asked heard at *
    split_ifs at * <;> omega

theorem StateBits.succ (h : StateBits f m u.rxbuf) (hst : StdSide f.b u) (hrx : PollSampled m u v)
    (hdata : pollSamples m → u.wDataIn = rawBit (encStdState f.st) ((m - 5) / 4)) : StateBits f (m + 1) v.rxbuf := by
  obtain ⟨hN, hbits⟩ := hst.rxbuf_bits f.instB
  have hN : u.rxbuf.N = 64 := hN
  intro k hk hlt
  rcases hrx with ⟨ht, hno⟩ | ⟨ht, hm⟩
  · have hpast : 4 * k + 5 ≠ m := fun hm => hno ⟨by omega, by omega, by omega⟩
    rw [ht, h k hk (by omega)]
  · obtain ⟨hlo, hhi, hmod⟩ := id hm
    rw [ht, rawBit_rawPutBit _ _ _ _ (by omega)]
    split
    case isTrue heq => rw [hdata hm, heq]
    case isFalse hne => exact h k hk (by omega)

theorem stdStateOf_encStdState (c : Config) {st : JoystickState} (hst : validStdState st = true) :
    stdStateOf c (encStdState st) = st := by
  let s : State := { State.reset with cfg := c }
  have hs : s.cur = none := rfl
  obtain ⟨B, henc, hdec⟩ := stdRecordsRoundTrip.1 st s s hst hs hs
  have hB : Result.buffer (encStdState st) = .buffer B := returned_result ((exec_encStdState hs st).symm.trans henc)
  obtain rfl := Result.buffer.inj hB
  have hlong : 57 ≤ (encStdState st).N := by rw [encStdState_N]; decide
  obtain ⟨hreads, -⟩ := decStdStateTestsChecksum _ s hlong hs
  rw [hreads (encStdState_checksum st)] at hdec
  exact (Result.state.inj (congrArg State.result (Host.Outcome.next.inj hdec))).1

/-- Once all state bits are sampled, `RXBUF` is the record's frame. -/
theorem StateBits.rxbuf_eq (h : StateBits f m u.rxbuf) (hst : StdSide f.b u) (hm : 257 < m) :
    u.rxbuf = encStdState f.st := by
  obtain ⟨hN, -⟩ := hst.rxbuf_bits f.instB
  have hN : u.rxbuf.N = 64 := hN
  obtain ⟨hb, -⟩ := (State.inv_iff u).mp hst.inv
  obtain ⟨-, hwf, -, -⟩ := (buffersOk_iff u).mp hb
  exact eq_of_rawBit_eq hwf (encStdState_wf f.st) (hN.trans (encStdState_N f.st).symm) (by rw [hN]; rfl)
    fun k hk => h k (by omega) (by omega)

theorem PollOver.step (h : PollOver f u) (hcur : u.cur = some i) (hexec : exec i u = .next v) : PollOver f v := by
  rcases h with hfail | ⟨hnone, -⟩
  · obtain rfl : i = f.polls := by
      rcases hfail with ⟨hcur', -⟩ | ⟨hnone, -⟩
      · exact Option.some.inj (hcur.symm.trans hcur')
      · cases hnone.symm.trans hcur
    exact .inl (failed_step (fun _ => rfl) hfail hcur hexec).1
  · cases hnone.symm.trans hcur

/-! ## Turns of the loopback -/

/-- A step of SEND.STD keeps the two sides in step. -/
theorem StdLinked.stepA (h : StdLinked f ca cb s u) (hcur : s.cur = some i) (hexec : exec i s = .next t) :
    StdLinked f ca cb t (connect t u) := by
  obtain ⟨hwired, m, g, hhears, hpolls, hsends⟩ := h
  have hst := hwired.here.toStdSide
  have hwire : s.wCtlIn = pollLine f.waiter m := hwired.ctlIn.trans hpolls.line
  have hrx : (connect t u).rxbuf = u.rxbuf := by rw [connect_aside t u]
  have hmove (hi : i = f.sends) : StdWired f t (connect t u) := by
    subst hi
    have w := exec_wrote hexec
    exact hwired.moveA (hwired.here.of_exec rfl (.inr hcur) hexec) w.wCtlIn w.wDataIn
  rcases hsends with ⟨hsends, hbits⟩ | ⟨hcall, hquiet, hg⟩
  · obtain ⟨hi, hcall, hsends' | ⟨hquiet, hg⟩⟩ := hsends.step hst hwire hcur hexec
    · have hmoved := hmove hi
      exact ⟨hmoved, m, _, hhears.of_connect hwired.ctlOut hmoved.here.dirs, hpolls.aside (connect_aside t u),
        .inl ⟨hsends', hrx ▸ hbits⟩⟩
    · have hmoved := hmove hi
      exact ⟨hmoved, m, _, hhears.of_connect hwired.ctlOut hmoved.here.dirs, hpolls.aside (connect_aside t u),
        .inr ⟨hcall, hquiet, hg⟩⟩
  · obtain ⟨hi, hquiet'⟩ := hquiet.step hst hcur hexec
    have hmoved := hmove hi
    have hnone : (if s.outCtl && !t.outCtl then 1 else 0) = 0 := by simp [hquiet'.1]
    exact ⟨hmoved, m, _, hhears.of_connect hwired.ctlOut hmoved.here.dirs, hpolls.aside (connect_aside t u),
      .inr ⟨hcall, hquiet', by omega⟩⟩

/-- A step of POLL.STD keeps them in step, or POLL.STD fails or returns. -/
theorem StdLinked.stepB (h : StdLinked f ca cb s u) (hrec : validStdState f.st = true) (hcur : u.cur = some i)
    (hexec : exec i u = .next v) : StdTrack f ca cb ⟨connect v s, v⟩ := by
  obtain ⟨hwired, m, g, hhears, hpolls, hsends⟩ := h
  have hst := hwired.there.toStdSide
  cases hpolls with
  | idle _ hnone => cases hnone.symm.trans hcur
  | runs hcall hat =>
    obtain rfl : i = f.polls := Option.some.inj (hcur.symm.trans hat.cur)
    have w := exec_wrote hexec
    obtain ⟨hcnt, hpending, -⟩ := edges_of_wrote w
    have hmoved : StdWired f (connect v s) v :=
      hwired.moveB (hwired.there.of_exec rfl (.inr hcur) hexec) w.wCtlIn w.wDataIn
    have hside := connect_aside v s
    cases pollStd_goes hst f.instB (hst.cfg ▸ rfl) hat hexec with
    | stays hat' hrx hbase =>
      refine .inr ⟨hmoved, m, g, hhears.of_eq w.wCtlIn hcnt hpending hbase, .runs hcall hat', ?_⟩
      rcases hsends with ⟨hsends, hbits⟩ | ⟨hcalled, hquiet, hg⟩
      · exact .inl ⟨hsends.aside hside, hrx ▸ hbits⟩
      · exact .inr ⟨hcalled, hquiet.aside hside, hg⟩
    | on hadv hfree =>
      refine .inr ⟨hmoved, m + 1, g, hhears.on hadv hfree w.wCtlIn ⟨hcnt, hpending⟩, .runs hcall hadv.at_succ, ?_⟩
      rcases hsends with ⟨hsends, hbits⟩ | ⟨hcalled, hquiet, hg⟩
      · refine .inl ⟨?_, hbits.succ hst hadv.sampled fun hm => ?_⟩
        · exact (hsends.aside hside).mono (asked_le_succ _ _) (asked_le _ _)
        · exact hwired.dataOut.trans (hsends.data_of_sample hhears.le hm)
      · exact .inr ⟨hcalled, hquiet.aside hside, hg⟩
    | fails hfail => exact .inl ⟨hcall, .inl hfail⟩
    | ends hm hnone hstate =>
      subst hm
      have hlast : 65 ≤ g := hhears.le
      rcases hsends with ⟨-, hbits⟩ | ⟨-, -, hg⟩
      · refine .inl ⟨hcall, .inr ⟨hnone, fun hzero => ?_⟩⟩
        rw [hstate hzero, hbits.rxbuf_eq hst (by decide), stdStateOf_encStdState _ hrec]
      · omega

/-- A background turn of SEND.STD's side keeps track. -/
theorem StdTrack.backgroundA {e : Event} {l : Link} (h : StdTrack f ca cb l) (he : isBackgroundTurn e)
    (hturn : turn e l.a = .next t) : StdTrack f ca cb ⟨t, connect t l.b⟩ := by
  rcases h with ⟨hcall, hover⟩ | h
  · exact .inl ⟨hcall, hover.aside (connect_aside t l.b)⟩
  rcases background_cases he hturn with ⟨i, hcur, hexec⟩ | ⟨hside, hctl, hdata⟩
  · exact .inr (h.stepA hcur hexec)
  · obtain ⟨hwired, m, g, hhears, hpolls, hsends⟩ := h
    have hmoved := hwired.moveA (hwired.here.aside (turn_inv hwired.here.inv hturn) hside) hctl hdata
    have hnone : (if l.a.outCtl && !t.outCtl then 1 else 0) = 0 := by rw [hside]; simp
    have hhears' := hhears.of_connect hwired.ctlOut hmoved.here.dirs
    rw [hnone] at hhears'
    refine .inr ⟨hmoved, m, g, hhears', hpolls.aside (connect_aside t l.b), ?_⟩
    rcases hsends with ⟨hsends, hbits⟩ | ⟨hcalled, hquiet, hg⟩
    · refine .inl ⟨hsends.aside hside, ?_⟩
      rw [connect_aside t l.b]
      exact hbits
    · exact .inr ⟨hcalled, hquiet.aside hside, hg⟩

/-- A background turn that is no step of ENGINE hears nothing new. -/
theorem Hears.background {w : Waiter} {e : Event} (h : Hears w m g u) (he : isBackgroundTurn e)
    (hturn : turn e u = .next v) (hrest : ∀ i, u.cur = some i → exec i u ≠ .next v) : Hears w m g v := by
  rcases he with rfl | rfl | ⟨us, rfl⟩
  · rcases engineTurn_next hturn with ⟨i, hcur, hexec⟩ | ⟨-, rfl⟩
    · exact (hrest i hcur hexec).elim
    · exact h
  · exact h.edge hturn
  · obtain rfl : clockAdvances us u = v := Host.Outcome.next.inj hturn
    exact h.of_eq rfl rfl rfl rfl

/-- A background turn of POLL.STD's side keeps track. -/
theorem StdTrack.backgroundB {e : Event} {l : Link} (h : StdTrack f ca cb l) (hrec : validStdState f.st = true)
    (he : isBackgroundTurn e) (hturn : turn e l.b = .next v) : StdTrack f ca cb ⟨connect v l.a, v⟩ := by
  by_cases hrun : ∃ i, l.b.cur = some i ∧ exec i l.b = .next v
  · obtain ⟨i, hcur, hexec⟩ := hrun
    rcases h with ⟨hcall, hover⟩ | h
    · exact .inl ⟨hcall, hover.step hcur hexec⟩
    · exact h.stepB hrec hcur hexec
  · obtain ⟨hside, hctl, hdata⟩ := (background_cases he hturn).resolve_left hrun
    rcases h with ⟨hcall, hover⟩ | ⟨hwired, m, g, hhears, hpolls, hsends⟩
    · exact .inl ⟨hcall, hover.aside hside⟩
    have hmoved := hwired.moveB (hwired.there.aside (turn_inv hwired.there.inv hturn) hside) hctl hdata
    have hhears' := hhears.background he hturn fun i hcur hexec => hrun ⟨i, hcur, hexec⟩
    refine .inr ⟨hmoved, m, g, hhears', hpolls.aside hside, ?_⟩
    have hsideA := connect_aside v l.a
    rcases hsends with ⟨hsends, hbits⟩ | ⟨hcalled, hquiet, hg⟩
    · refine .inl ⟨hsends.aside hsideA, ?_⟩
      rw [hside]
      exact hbits
    · exact .inr ⟨hcalled, hquiet.aside hsideA, hg⟩

theorem StdTrack.background {e : LinkEvent} {l l' : Link} (h : StdTrack f ca cb l) (hrec : validStdState f.st = true)
    (he : isBackground e = true) (hturn : linkTurn e l = some l') : StdTrack f ca cb l' := by
  rcases e with e | e
  · obtain ⟨t, hown, rfl⟩ := linkTurn_onA hturn
    exact h.backgroundA (backgroundTurn_of_onA he) hown
  · obtain ⟨v, hown, rfl⟩ := linkTurn_onB hturn
    exact h.backgroundB hrec (backgroundTurn_of_onA (isBackground_onB e ▸ he)) hown

/-! ## HOST's two calls -/

/-- HOST's call of a data-plane operation starts it. -/
theorem StdStation.turn_issue {c : Config} {code : Byte} (h : StdStation c code i s) (hi : isDataPlane i = true)
    (hcur : s.cur = none) : turn (.issue code) s = exec i s := by
  have hne : i ≠ .edgeCb := fun h => by simp [h, isDataPlane] at hi
  exact call_of_decode hcur h.call hne

theorem stdStrict_of_wf {c : Config} {r : Role} (hwf : c.wf = true) (hinst : isInstance c .std r = true) :
    c.stdStrict = false := by
  simp_all [Config.wf, isInstance]

theorem StdTrack.callA {l : Link} (h : StdTrack f False cb l) (hturn : turn (.issue 0x63) l.a = .next t) :
    StdTrack f True cb ⟨t, connect t l.b⟩ := by
  rcases h with ⟨hcall, hover⟩ | ⟨hwired, m, g, hhears, hpolls, ⟨hsends, hbits⟩ | ⟨hcalled, -⟩⟩
  · exact .inl ⟨hcall, hover.aside (connect_aside t l.b)⟩
  case inr.inr => exact hcalled.elim
  have hst := hwired.here
  cases hsends with
  | runs hcalled | past hcalled => exact hcalled.elim
  | idle _ hcur hline hg =>
    subst hg
    obtain ⟨t', hexec, hat, -, -, hline'⟩ := sendStd_starts (st := f.st) (wait := f.waitA) (hst.cfg ▸ f.instA)
      (hst.cfg ▸ stdStrict_of_wf hst.wf f.instA) hst.done hcur hline
    obtain rfl := Host.Outcome.next.inj (hturn.symm.trans ((hst.turn_issue rfl hcur).trans hexec))
    have w := exec_wrote hexec
    have hmoved := hwired.moveA (hst.of_exec rfl (.inl hcur) hexec) w.wCtlIn w.wDataIn
    have hhears' := hhears.of_connect hwired.ctlOut hmoved.here.dirs
    rw [if_neg (by simp [hline'])] at hhears'
    refine .inr ⟨hmoved, m, 0, hhears', hpolls.aside (connect_aside t l.b),
      .inl ⟨.runs trivial hat (by decide) rfl ?_, ?_⟩⟩
    · exact Nat.zero_le _
    · rw [connect_aside t l.b]
      exact hbits

theorem StdTrack.callB {l : Link} (h : StdTrack f ca False l) (hturn : turn (.issue 0x62) l.b = .next v) :
    StdTrack f ca True ⟨connect v l.a, v⟩ := by
  rcases h with ⟨hcall, -⟩ | ⟨hwired, m, g, hhears, hpolls, hsends⟩
  · exact hcall.elim
  have hst := hwired.there
  cases hpolls with
  | runs hcalled => exact hcalled.elim
  | idle _ hcur hline hm =>
    subst hm
    obtain ⟨v', hexec, hat, -, -, hbase⟩ := pollStd_starts (w := f.waiter) (r := f.r) (wait := f.waitB)
      (hst.cfg ▸ f.instB) (hst.cfg ▸ stdStrict_of_wf hst.wf f.instB) hst.done hcur hline
    obtain rfl := Host.Outcome.next.inj (hturn.symm.trans ((hst.turn_issue rfl hcur).trans hexec))
    have w := exec_wrote hexec
    obtain ⟨hcnt, hpending, -⟩ := edges_of_wrote w
    have hmoved := hwired.moveB (hst.of_exec rfl (.inl hcur) hexec) w.wCtlIn w.wDataIn
    have hside := connect_aside v l.a
    refine .inr ⟨hmoved, 0, g, hhears.of_eq w.wCtlIn hcnt hpending hbase, .runs trivial hat, ?_⟩
    rcases hsends with ⟨hsends, -⟩ | ⟨hcalled, hquiet, hg⟩
    · exact .inl ⟨hsends.aside hside, fun k _ hk => by omega⟩
    · exact .inr ⟨hcalled, hquiet.aside hside, hg⟩

end

/-! ## Runs of a loopback -/

section
variable {P : Link → Prop}

/-- What every background event keeps holds at the end of a run without a call. -/
theorem linkTurns_of_no_calls (hback : ∀ {e l l'}, P l → isBackground e = true → linkTurn e l = some l' → P l')
    {es : List LinkEvent} {l m : Link} (hcalls : callsOf es = []) (hrun : linkTurns es l = some m) (hl : P l) :
    P m := by
  induction es generalizing l with
  | nil =>
    obtain rfl := Option.some.inj hrun
    exact hl
  | cons e es ih =>
    obtain ⟨l', hturn, hrun⟩ := linkTurns_cons hrun
    cases he : isBackground e with
    | true => exact ih ((callsOf_background he es).symm.trans hcalls) hrun (hback hl he hturn)
    | false =>
      rw [callsOf_call he] at hcalls
      cases hcalls

/-- And up to the first call of a run. -/
theorem linkTurns_to_call (hback : ∀ {e l l'}, P l → isBackground e = true → linkTurn e l = some l' → P l')
    {es cs : List LinkEvent} {c : LinkEvent} {l m : Link} (hcalls : callsOf es = c :: cs)
    (hrun : linkTurns es l = some m) (hl : P l) :
    ∃ l₁ l₂ es', P l₁ ∧ linkTurn c l₁ = some l₂ ∧ callsOf es' = cs ∧ linkTurns es' l₂ = some m := by
  induction es generalizing l with
  | nil => cases hcalls
  | cons e es ih =>
    obtain ⟨l', hturn, hrun⟩ := linkTurns_cons hrun
    cases he : isBackground e with
    | true => exact ih ((callsOf_background he es).symm.trans hcalls) hrun (hback hl he hturn)
    | false =>
      rw [callsOf_call he] at hcalls
      obtain ⟨rfl, hrest⟩ := List.cons.inj hcalls
      exact ⟨l, l', es, hl, hturn, hrest, hrun⟩

end

section
variable {f : StdFrame} {l m : Link} {es : List LinkEvent}

/-- A run in which HOST makes each of the two calls once, in either order, keeps track. -/
theorem StdTrack.run (h : StdTrack f False False l) (hrec : validStdState f.st = true)
    (hcalls : callsOf es = [.onA (.issue 0x63), .onB (.issue 0x62)] ∨
      callsOf es = [.onB (.issue 0x62), .onA (.issue 0x63)])
    (hrun : linkTurns es l = some m) : StdTrack f True True m := by
  have hback {ca cb : Prop} {e : LinkEvent} {l l' : Link} (h : StdTrack f ca cb l) :=
    h.background (e := e) (l' := l') hrec
  rcases hcalls with hcalls | hcalls
  · obtain ⟨l₁, l₂, es₁, h₁, hturn, hcalls, hrun⟩ := linkTurns_to_call hback hcalls hrun h
    obtain ⟨t, hown, rfl⟩ := linkTurn_onA hturn
    obtain ⟨l₃, l₄, es₂, h₂, hturn, hcalls, hrun⟩ := linkTurns_to_call hback hcalls hrun (h₁.callA hown)
    obtain ⟨v, hown, rfl⟩ := linkTurn_onB hturn
    exact linkTurns_of_no_calls hback hcalls hrun (h₂.callB hown)
  · obtain ⟨l₁, l₂, es₁, h₁, hturn, hcalls, hrun⟩ := linkTurns_to_call hback hcalls hrun h
    obtain ⟨v, hown, rfl⟩ := linkTurn_onB hturn
    obtain ⟨l₃, l₄, es₂, h₂, hturn, hcalls, hrun⟩ := linkTurns_to_call hback hcalls hrun (h₁.callB hown)
    obtain ⟨t, hown, rfl⟩ := linkTurn_onA hturn
    exact linkTurns_of_no_calls hback hcalls hrun (h₂.callA hown)

/-! ## From the start of the frame -/

/-- The Std frame of a loopback, whose records are those in HOST's operands. -/
def Link.stdFrame (l : Link) (ha : isInstance l.a.cfg .std .throttleClient = true)
    (hb : isInstance l.b.cfg .std .joystickClient = true) : StdFrame :=
  ⟨l.a.cfg, l.b.cfg, l.a.args.stateRec, l.b.args.stdCfg, l.a.args.waitMicros, l.b.args.waitMicros, ha, hb⟩

/-- A side at rest after its Setup is a station with its lines idle. -/
theorem stdStation_of_rest {s : State} {code : Byte} {i : Instr} (hinv : s.inv = true) (hwf : s.cfg.wf = true)
    (hcall : decode (.op code s.args) = .ok i) (hdone : s.setupDone = true) (hrest : s.atRest = true)
    (hidle : outputsIdle s = true) :
    StdStation s.cfg code i s ∧ s.cur = none ∧ s.outCtl = idleCtl s.cfg := by
  obtain ⟨hcur, -, -, -⟩ := (atRest_iff s).mp hrest
  obtain ⟨hline, -⟩ := (outputsIdle_iff s).mp hidle
  obtain ⟨-, -, hplace, -, -⟩ := (State.inv_iff s).mp hinv
  obtain ⟨-, hrests⟩ := atRest_of_placeOk hplace hcur
  obtain ⟨hdirs, -, -⟩ := (restsIdle_iff s).mp hrests hdone
  exact ⟨⟨⟨hinv, rfl, hwf, hdirs⟩, hcall, hdone⟩, hcur, hline⟩

/-- A pair that is ready for a frame: stations, wires, both at rest with idle lines, and no edge pending. -/
theorem stdWired_of_ready (h : l.ready = true) (ha : isInstance l.a.cfg .std .throttleClient = true)
    (hb : isInstance l.b.cfg .std .joystickClient = true) :
    StdWired (l.stdFrame ha hb) l.a l.b ∧ (l.a.cur = none ∧ l.a.outCtl = true) ∧
      (l.b.cur = none ∧ l.b.outCtl = false ∧ l.b.edgePending = 0) := by
  obtain ⟨⟨hinv, hrest, hdone, hidle, -⟩, ⟨hinv', hrest', hdone', hidle', hedges⟩, hcfg, hwired⟩ := l.ready_iff.mp h
  obtain ⟨hctlIn, hdataIn, hctlOut, hdataOut⟩ := l.wired_iff.mp hwired
  simp only [Link.configured, Bool.and_eq_true] at hcfg
  obtain ⟨⟨⟨hwf, hwf'⟩, -⟩, -⟩ := hcfg
  obtain ⟨hst, hcur, hline⟩ := stdStation_of_rest (code := 0x63) hinv hwf (decode_of_decodeOp rfl rfl) hdone hrest hidle
  obtain ⟨hst', hcur', hline'⟩ := stdStation_of_rest (code := 0x62) hinv' hwf' (decode_of_decodeOp rfl rfl) hdone'
    hrest' hidle'
  exact ⟨⟨hst, hst', hctlIn, hdataIn, hctlOut, hdataOut⟩, ⟨hcur, hline.trans (idleCtl_stdTc ha)⟩, hcur',
    hline'.trans (idleCtl_stdJc hb), hedges⟩

theorem stdTrack_of_ready (h : l.ready = true) (ha : isInstance l.a.cfg .std .throttleClient = true)
    (hb : isInstance l.b.cfg .std .joystickClient = true) : StdTrack (l.stdFrame ha hb) False False l := by
  obtain ⟨hwired, ⟨hcur, hline⟩, hcur', hline', hedges⟩ := stdWired_of_ready h ha hb
  have hstage : stage 0 = 0 := rfl
  refine .inr ⟨hwired, 0, 0, ⟨le_rfl, fun _ h => by omega, fun _ _ _ => hwired.ctlOut.trans hline, fun _ => ?_,
    fun _ h => by omega⟩, .idle id hcur' hline' rfl, .inl ⟨.idle id hcur hline rfl, fun k _ hk => by omega⟩⟩
  rw [hedges]
  exact le_rfl

end

/-- Settles O59: the run keeps track of the two sides, and where POLL.STD has returned 0 its state is the record. -/
theorem stdLoopbackStateArrives : Obligations.StdLoopbackStateArrives := by
  intro l m es hready ha hb hrec hcalls hrun hcur hzero
  rcases (stdTrack_of_ready hready ha hb).run hrec hcalls hrun with ⟨-, hfail | ⟨-, hstate⟩⟩ | ⟨-, _, _, -, hpolls, -⟩
  · rcases hfail with ⟨hcur', -⟩ | ⟨-, code, hcode, hresult⟩
    · cases hcur.symm.trans hcur'
    · exact (hcode (Result.code.inj (hresult.symm.trans hzero))).elim
  · exact hstate hzero
  · cases hpolls with
    | idle hno => exact (hno trivial).elim
    | runs _ hat => cases hcur.symm.trans hat.cur

end Sys2Proof.Machine
end

section
/-! Two Std engines on a loopback can complete (O60): the pace at which each side follows the other, and that one of
the two can always go on. -/

namespace Sys2Proof.Machine
open Sys2Proof.Claims

/-! ## Keeping pace -/

/-- The positions the two sides can have at one time in the state phase, when no pulse is missed: the throttle's side
raises the line only when the pulse has been seen, and the joystick's side goes on only when it is high again. -/
structure PulsesInStep (w : Waiter) (n m : Nat) : Prop where
  prompt : prompts n ≤ asked w m
  behind : heard m ≤ drops n
  seen : w = .polling → stage m = 3 → heard m + 1 ≤ drops n
  held : stage m ≠ 3 → m ≤ 260 → n ≤ 5 * (heard m + 1)
  idle : stage m ≠ 3 → heard m = drops n → sendLine n = true

/-- And in the config phase: the throttle's side has seen the levels of the request line that it is past, and the
joystick's side is so slow that it can. -/
structure ConfigInStep (n m : Nat) : Prop where
  low : 326 ≤ n → (n - 326) % 3 = 1 → 263 + 5 * ((n - 326) / 3) ≤ m
  high : 326 ≤ n → (n - 326) % 3 = 2 → 266 + 5 * ((n - 326) / 3) ≤ m
  done : 326 < n → (n - 326) % 3 = 0 → 261 + 5 * ((n - 326) / 3) ≤ m
  slow : 262 ≤ m → 326 + 3 * ((m - 262) / 5) + (if (m - 262) % 5 = 4 then 1 else 0) ≤ n

/-- The throttle's side can go on: the request line is as it waits for, and carries the bit it is to sample. -/
structure SendMay (w : Waiter) (n m : Nat) : Prop where
  waits : ∀ v, sendAwaits n v → pollLine w m = v
  samples : sendSamples n → 264 ≤ m ∧ (m - 264) / 5 = (n - 328) / 3

/-- The joystick's side can go on: the pulse line is as it waits for, its edge is there, and the data line carries the
bit it is to sample. -/
structure PollMay (w : Waiter) (n m : Nat) : Prop where
  idle : m = 0 ∨ m = 261 → sendLine n = true
  drop : w = .polling → stage m = 2 → sendLine n = false
  back : stage m = 3 → sendLine n = true ∧ drops n = heard m + 1
  samples : pollSamples m → 3 ≤ n ∧ n ≤ 322 ∧ (n - 3) / 5 = (m - 5) / 4

section
variable {w : Waiter} {n m : Nat}

/-- In the config phase, as long as one side is not past its last position. -/
theorem config_progress (h : ConfigInStep n m) (hn : 326 ≤ n) (hm : 262 ≤ m) (hn' : n ≤ 351) (hm' : m ≤ 303)
    (hne : n + m ≠ 654) :
    (n < 351 ∧ SendMay w n m ∧ ConfigInStep (n + 1) m) ∨ (m < 303 ∧ ConfigInStep n (m + 1)) := by
  obtain ⟨hlow, hhigh, hdone, hslow⟩ := h
  by_cases hB : m < 303 ∧ 326 + 3 * ((m + 1 - 262) / 5) + (if (m + 1 - 262) % 5 = 4 then 1 else 0) ≤ n
  · exact .inr ⟨hB.1, by omega, by omega, by omega, fun _ => hB.2⟩
  · have hslow := hslow hm
    refine .inl ⟨by grind, ⟨fun v hv => ?_, fun ⟨_, _, _⟩ => by grind⟩, ⟨by grind, by grind, by grind, by grind⟩⟩
    rw [pollLine_of_config hm]
    rcases hv with ⟨hzero, -⟩ | ⟨-, hhi, -⟩ | ⟨_, _, hmod, rfl⟩ | ⟨_, _, hmod, rfl⟩
    · omega
    · omega
    · exact decide_eq_false (by grind)
    · exact decide_eq_true (by grind)

/-- A throttle's side that may go on keeps pace, up to the config phase. -/
theorem PulsesInStep.send_succ (h : PulsesInStep w n m) (hn : n ≤ 325) (hmay : SendMay w n m)
    (hheld : stage m ≠ 3 → m ≤ 260 → n + 1 ≤ 5 * (heard m + 1))
    (hidle : stage m ≠ 3 → heard m = drops n → drops (n + 1) = drops n → sendLine (n + 1) = true) :
    PulsesInStep w (n + 1) m := by
  obtain ⟨hprompt, hbehind, hseen, -, -⟩ := h
  have hdrops : drops n ≤ drops (n + 1) := by unfold drops; omega
  refine ⟨prompts_succ_le hprompt hn hmay.waits, by omega, fun hw hm => by have := hseen hw hm; omega, hheld, ?_⟩
  intro hm heq
  exact hidle hm (by omega) (by omega)

theorem heard_le_of_stage (h : stage m ≠ 0) : m ≤ 260 ∧ heard m ≤ 64 := by
  have hle : m ≤ 260 := by
    unfold stage at h
    split_ifs at h <;> omega
  unfold heard
  split_ifs <;> omega

theorem sendLine_eq_true : sendLine n = true ↔ ¬(4 ≤ n ∧ n ≤ 325 ∧ (n % 5 = 4 ∨ n % 5 = 0)) := decide_eq_true_iff

/-- A joystick's side that may go on keeps pace. -/
theorem PulsesInStep.poll_succ (h : PulsesInStep w n m) (hmay : PollMay w n m) : PulsesInStep w n (m + 1) := by
  obtain ⟨hprompt, hbehind, hseen, hheld, hidle⟩ := h
  obtain ⟨-, hdrop, hback, -⟩ := hmay
  have hheard := heard_succ m
  have hstage := stage_succ m
  have hlast (hm : m + 1 ≤ 260) : heard (m + 1) ≤ 64 := by
    unfold heard
    split_ifs <;> omega
  refine ⟨hprompt.trans (asked_le_succ w m), ?behind, fun hw hm => ?seen, fun hne hm => ?held, fun hne heq => ?idle⟩
  case behind => grind
  case seen =>
    have hlow := hdrop hw (by omega)
    have hmore : heard m ≠ drops n := fun heq => by simp [hidle (by omega) heq] at hlow
    grind
  case held =>
    by_cases h3 : stage m = 3
    · obtain ⟨-, hone⟩ := hback h3
      have hlast := hlast hm
      rw [if_pos h3] at hheard
      unfold drops at hone
      omega
    · have hheld := hheld h3 (by omega)
      grind
  case idle =>
    by_cases h3 : stage m = 3
    · exact (hback h3).1
    · exact hidle h3 (by grind)

/-- What keeps the joystick's side from going on is that it awaits a pulse it has asked for, or the end of the last
one; the throttle's side is free to make it. -/
theorem pulses_progress (h : PulsesInStep w n m) (hn : n ≤ 326) (hm : m ≤ 261) :
    (n < 326 ∧ SendMay w n m ∧ PulsesInStep w (n + 1) m) ∨ (PollMay w n m ∧ PulsesInStep w n (m + 1)) := by
  by_cases hmay : PollMay w n m
  · exact .inr ⟨hmay, h.poll_succ hmay⟩
  obtain ⟨hprompt, hbehind, hseen, hheld, hidle⟩ := id h
  have hasked : asked w m = heard m + if 2 + lead w ≤ stage m then 1 else 0 := rfl
  have hstart (hm : m = 0) : n = 0 := by
    subst hm
    have hnone : asked w 0 = 0 := by cases w <;> rfl
    rw [hnone] at hprompt
    unfold prompts at hprompt
    split_ifs at hprompt <;> omega
  have hsample := slot_of_sample hbehind hprompt
  have hwaits : m = 261 ∧ sendLine n = false ∨ (w = .polling ∧ stage m = 2 ∧ sendLine n = true) ∨
      (stage m = 3 ∧ ¬(sendLine n = true ∧ drops n = heard m + 1)) := by
    by_contra hno
    obtain ⟨hno, hno', hno''⟩ := (not_or.trans (and_congr_right' not_or)).mp hno
    refine hmay ⟨?_, ?_, fun h3 => not_not.mp fun h => hno'' ⟨h3, h⟩, hsample⟩
    · rintro (rfl | rfl)
      · rw [hstart rfl]; rfl
      · simpa using fun h => hno ⟨rfl, h⟩
    · intro hw hs
      simpa using fun h => hno' ⟨hw, hs, h⟩
  have hpulse : m = 261 ∧ sendLine n = false ∨ (asked w m = heard m + 1 ∧ m ≤ 260 ∧ heard m ≤ 64 ∧
      ¬(sendLine n = true ∧ drops n = heard m + 1)) := by
    rcases hwaits with hm | ⟨rfl, hs, hline⟩ | ⟨hs, hno⟩
    · exact .inl hm
    · obtain ⟨hle, hheard⟩ := heard_le_of_stage (m := m) (by omega)
      refine .inr ⟨by rw [hasked, hs]; rfl, hle, hheard, fun ⟨_, hdrops⟩ => ?_⟩
      have hheld := hheld (by omega) hle
      rw [sendLine_eq_true] at hline
      unfold drops at hdrops
      omega
    · obtain ⟨hle, hheard⟩ := heard_le_of_stage (m := m) (by omega)
      have hlead := lead_le w
      exact .inr ⟨by rw [hasked, hs, if_pos (show 2 + lead w ≤ 3 by omega)], hle, hheard, hno⟩
  have hlast : n < 326 := by
    rcases hpulse with ⟨-, hline⟩ | ⟨ha, -, hheard, hno⟩
    · exact hn.lt_of_ne fun h => by simp [h, sendLine_of_le] at hline
    · refine hn.lt_of_ne fun h => ?_
      subst h
      have hprompts : prompts 326 = 65 := rfl
      have hdrops : drops 326 = 65 := rfl
      rw [hprompts, ha] at hprompt
      exact hno ⟨rfl, by rw [hdrops]; omega⟩
  have hsend : SendMay w n m := by
    refine ⟨fun v hv => ?_, fun ⟨hlo, _, _⟩ => by omega⟩
    rcases hpulse with ⟨-, hline⟩ | ⟨ha, hle, hheard, hno⟩
    · simp [sendLine_of_awaits hv] at hline
    · have hdrops : drops n ≠ heard m + 1 := fun h => hno ⟨sendLine_of_awaits hv, h⟩
      rw [pollLine_of_le (by omega), ha]
      rw [ha] at hprompt
      unfold drops at hdrops hbehind
      unfold prompts at hprompt
      rcases hv with ⟨rfl, rfl⟩ | ⟨_, _, hmod, rfl⟩ | ⟨_, _, _, _⟩ | ⟨_, _, _, _⟩
      · exact decide_eq_true (by omega)
      · exact decide_eq_decide.mpr (by split_ifs at hprompt <;> omega)
      · omega
      · omega
  refine .inl ⟨hlast, hsend, h.send_succ (by omega) hsend (fun hne hle => ?held) fun hne heq hsame => ?idle⟩
  case held =>
    have hheld := hheld hne hle
    rcases hwaits with ⟨rfl, -⟩ | ⟨-, -, hline⟩ | ⟨h3, -⟩
    · omega
    · rw [sendLine_eq_true] at hline
      omega
    · exact (hne h3).elim
  case idle =>
    rcases hwaits with ⟨-, hline⟩ | ⟨-, -, hline⟩ | ⟨h3, -⟩
    · simp [hidle hne heq] at hline
    · rw [drops_succ, hline] at hsame
      simpa using hsame
    · exact (hne h3).elim

/-! ## One side can always go on -/

/-- The two sides are in step in both phases. -/
structure FrameInStep (w : Waiter) (n m : Nat) : Prop where
  pulses : PulsesInStep w n m
  config : ConfigInStep n m

theorem frameInStep_start (w : Waiter) : FrameInStep w 0 0 := by
  have hstage : stage 0 = 0 := rfl
  refine ⟨⟨Nat.zero_le _, le_rfl, fun _ h => ?_, fun _ _ => Nat.zero_le _, fun _ _ => rfl⟩, ?_⟩
  · omega
  · constructor <;> omega

/-- Past the state phase no pulse is left. -/
theorem pulsesInStep_of_config (hn : 326 ≤ n) (hm : 262 ≤ m) : PulsesInStep w n m := by
  have hheard : heard m = 65 := by
    unfold heard
    split_ifs <;> omega
  have hstage : stage m = 0 := by
    unfold stage
    split_ifs <;> omega
  have hdrops : drops n = 65 := by
    unfold drops
    omega
  have hprompts : prompts n ≤ 65 := by
    unfold prompts
    split_ifs <;> omega
  exact ⟨by rw [asked_config (by omega)]; exact hprompts, by omega, fun _ h => by omega, fun _ h => by omega,
    fun _ _ => sendLine_of_le hn⟩

/-- Until both are past their last position, one of the two can go on, and they stay in step. -/
theorem frame_progress (h : FrameInStep w n m) (hn : n ≤ 351) (hm : m ≤ 303) (hne : n + m ≠ 654) :
    (n < 351 ∧ SendMay w n m ∧ FrameInStep w (n + 1) m) ∨
      (m < 303 ∧ PollMay w n m ∧ FrameInStep w n (m + 1)) := by
  obtain ⟨hpulses, hconfig⟩ := h
  by_cases hphase : 326 ≤ n ∧ 262 ≤ m
  · obtain ⟨hn', hm'⟩ := hphase
    rcases config_progress hconfig hn' hm' hn hm hne with ⟨hlt, hmay, hstep⟩ | ⟨hlt, hstep⟩
    · exact .inl ⟨hlt, hmay, pulsesInStep_of_config (by omega) hm', hstep⟩
    · have hstage : stage m = 0 := by
        unfold stage
        split_ifs <;> omega
      exact .inr ⟨hlt, ⟨by omega, fun _ h => by omega, by omega, fun ⟨_, _, _⟩ => by omega⟩,
        pulsesInStep_of_config hn' (by omega), hstep⟩
  · obtain ⟨hlow, hhigh, hdone, hslow⟩ := hconfig
    have hn' : n ≤ 326 ∧ m ≤ 261 := by omega
    rcases pulses_progress hpulses hn'.1 hn'.2 with ⟨hlt, hmay, hstep⟩ | ⟨hmay, hstep⟩
    · exact .inl ⟨by omega, hmay, hstep, by constructor <;> omega⟩
    · refine .inr ⟨by omega, hmay, hstep, ?_⟩
      have hlast (hm : m = 261) : 326 ≤ n := by
        have hline := hmay.idle (.inr hm)
        have hall : 65 ≤ drops n := by
          subst hm
          exact hpulses.behind
        rw [sendLine_eq_true] at hline
        unfold drops at hall
        omega
      exact ⟨by omega, by omega, by omega, fun _ => by split_ifs <;> omega⟩

end
end Sys2Proof.Machine
end

section
/-! Two Std engines on a loopback can complete (O60): ENGINE's turns are taken by whichever side can go on; a delay is
waited for and an edge is counted at once. -/

namespace Sys2Proof.Machine
open Sys2Proof.Claims
open Relation (ReflTransGen)

/-! ## Runs without a call -/

/-- One background event of a loopback. -/
def Runs (l l' : Link) : Prop := ∃ e, isBackground e = true ∧ linkTurn e l = some l'

/-- Background events in a row are a run of the loopback without a call. -/
theorem linkTurns_of_runs {l l' : Link} (h : ReflTransGen Runs l l') :
    ∃ es, callsOf es = [] ∧ linkTurns es l = some l' := by
  induction h using ReflTransGen.head_induction_on with
  | refl => exact ⟨[], rfl, rfl⟩
  | head hrun _ ih =>
    obtain ⟨es, hcalls, hrest⟩ := ih
    obtain ⟨e, he, hturn⟩ := hrun
    exact ⟨e :: es, (callsOf_background he es).trans hcalls, (linkTurns_of_turn hturn).trans hrest⟩

section
variable {f : StdFrame} {s t u v : State} {n m : Nat}

theorem Runs.engineA {i : Instr} (hcur : s.cur = some i) (h : exec i s = .next t) : Runs ⟨s, u⟩ ⟨t, connect t u⟩ :=
  ⟨.onA .engine, rfl, linkTurn_of_turn_a (l := ⟨s, u⟩) rfl ((engineTurn_of_cur hcur).trans h)⟩

theorem Runs.engineB {i : Instr} (hcur : u.cur = some i) (h : exec i u = .next v) : Runs ⟨s, u⟩ ⟨connect v s, v⟩ :=
  ⟨.onB .engine, rfl, linkTurn_of_turn_b (l := ⟨s, u⟩) rfl ((engineTurn_of_cur hcur).trans h)⟩

/-! ## Wires that already carry a side's levels -/

theorem connect_eq_self (hdirs : dirsSet s = true) (hctl : u.wCtlIn = s.outCtl) (hdata : u.wDataIn = s.outData) :
    connect s u = u := by
  rw [connect_eq hdirs, ← hctl, ← hdata]
  have hedge : (u.attached && u.wCtlIn && !u.wCtlIn) = false := by cases u.wCtlIn <;> simp
  simp only [peerDrivesCtl, peerDrivesData, hedge]
  rfl

/-- `t` is `s` at a later time. -/
def Later (s t : State) : Prop := t = { s with now := t.now, delayLeft := t.delayLeft }

theorem Later.aside (h : Later s t) : Aside s t := by
  unfold Aside
  rw [h]

theorem Later.trans (h : Later s t) (h' : Later t u) : Later s u := by
  unfold Later at *
  rw [h', h]

/-- A side that only gets later or counts edges leaves the wires as they are. -/
theorem StdWired.asideA (h : StdWired f s u) (hside : Aside s t) (hinv : t.inv = true) (hctl : t.wCtlIn = s.wCtlIn)
    (hdata : t.wDataIn = s.wDataIn) : StdWired f t u ∧ connect t u = u := by
  have ht := h.here.aside hinv hside
  have hself : connect t u = u :=
    connect_eq_self ht.dirs (by rw [hside]; exact h.ctlOut) (by rw [hside]; exact h.dataOut)
  refine ⟨?_, hself⟩
  have hmoved := h.moveA ht hctl hdata
  rwa [hself] at hmoved

theorem StdWired.asideB (h : StdWired f s u) (hside : Aside u v) (hinv : v.inv = true) (hctl : v.wCtlIn = u.wCtlIn)
    (hdata : v.wDataIn = u.wDataIn) : StdWired f s v ∧ connect v s = s := by
  have hv := h.there.aside hinv hside
  have hself : connect v s = s := connect_eq_self hv.dirs (by rw [hside]; exact h.ctlIn) (by rw [hside]; exact h.dataIn)
  refine ⟨?_, hself⟩
  have hmoved := h.moveB hv hctl hdata
  rwa [hself] at hmoved

/-! ## Waiting for a delay, counting an edge -/

/-- The throttle's side waits its delay out. -/
theorem StdWired.waitA (h : StdWired f s u) :
    ∃ t, ReflTransGen Runs ⟨s, u⟩ ⟨t, u⟩ ∧ StdWired f t u ∧ Later s t ∧ t.delayLeft = 0 := by
  induction hd : s.delayLeft generalizing s with
  | zero => exact ⟨s, .refl, h, rfl, hd⟩
  | succ d ih =>
    have hturn : turn (.clock 1) s = .next (clockAdvances 1 s) := rfl
    obtain ⟨hwired, hself⟩ := h.asideA (t := clockAdvances 1 s) rfl (turn_inv h.here.inv hturn) rfl rfl
    have hrun : Runs ⟨s, u⟩ ⟨clockAdvances 1 s, u⟩ :=
      ⟨.onA (.clock 1), rfl, by rw [linkTurn_of_turn_a (l := ⟨s, u⟩) rfl hturn]; simp only [hself]⟩
    have hleft : (clockAdvances 1 s).delayLeft = d := by rw [clockAdvances_delayLeft, hd]; rfl
    obtain ⟨t, hgo, hend, hlater, hdone⟩ := ih hwired hleft
    exact ⟨t, .head hrun hgo, hend, Later.trans (t := clockAdvances 1 s) rfl hlater, hdone⟩

/-- The joystick's side waits its delay out. -/
theorem StdWired.waitB (h : StdWired f s u) :
    ∃ v, ReflTransGen Runs ⟨s, u⟩ ⟨s, v⟩ ∧ StdWired f s v ∧ Later u v ∧ v.delayLeft = 0 := by
  induction hd : u.delayLeft generalizing u with
  | zero => exact ⟨u, .refl, h, rfl, hd⟩
  | succ d ih =>
    have hturn : turn (.clock 1) u = .next (clockAdvances 1 u) := rfl
    obtain ⟨hwired, hself⟩ := h.asideB (v := clockAdvances 1 u) rfl (turn_inv h.there.inv hturn) rfl rfl
    have hrun : Runs ⟨s, u⟩ ⟨s, clockAdvances 1 u⟩ :=
      ⟨.onB (.clock 1), rfl, by rw [linkTurn_of_turn_b (l := ⟨s, u⟩) rfl hturn]; simp only [hself]⟩
    have hleft : (clockAdvances 1 u).delayLeft = d := by rw [clockAdvances_delayLeft, hd]; rfl
    obtain ⟨t, hgo, hend, hlater, hdone⟩ := ih hwired hleft
    exact ⟨t, .head hrun hgo, hend, Later.trans (t := clockAdvances 1 u) rfl hlater, hdone⟩

/-- With `g` pulses begun, the interrupt-counted waiter has counted those it has not heard yet. -/
structure Counts (g m : Nat) (u : State) : Prop where
  attached : u.attached = true
  pending : u.edgePending = 0
  counted : 2 ≤ stage m → u.edgeCnt - u.baseCnt = BitVec.ofNat 32 (g - heard m)

/-- EDGECB counts the edge of a pulse that begins. -/
theorem StdWired.count (h : StdWired f s u) {g : Nat} {drop : Bool} (hattached : u.attached = true)
    (hpending : u.edgePending = if drop then 1 else 0) (hg : heard m ≤ g)
    (hcounted : 2 ≤ stage m → u.edgeCnt - u.baseCnt = BitVec.ofNat 32 (g - heard m)) :
    ∃ v, ReflTransGen Runs ⟨s, u⟩ ⟨s, v⟩ ∧ StdWired f s v ∧ Aside u v ∧ v.delayLeft = u.delayLeft ∧
      Counts (g + if drop then 1 else 0) m v := by
  cases drop with
  | false => exact ⟨u, .refl, h, rfl, rfl, hattached, hpending, hcounted⟩
  | true =>
    let v : State := { u with edgePending := u.edgePending - 1, edgeCnt := u.edgeCnt + 1 }
    have hpos : 0 < u.edgePending := by rw [hpending]; decide
    have hturn : turn .edgecb u = .next v := (execEdgeCb_next u).trans (by rw [if_pos hpos])
    obtain ⟨hwired, hself⟩ := h.asideB (v := v) rfl (turn_inv h.there.inv hturn) rfl rfl
    refine ⟨v, .single ⟨.onB .edgecb, rfl, ?_⟩, hwired, rfl, rfl, hattached, ?_, fun hm => ?_⟩
    · rw [linkTurn_of_turn_b (l := ⟨s, u⟩) rfl hturn]
      simp only [hself]
    · show u.edgePending - 1 = 0
      rw [hpending]
      rfl
    · show u.edgeCnt + 1 - u.baseCnt = BitVec.ofNat 32 (g + 1 - heard m)
      have hsucc : g + 1 - heard m = g - heard m + 1 := by omega
      rw [hsucc, BitVec.ofNat_add, ← hcounted hm]
      bv_omega

end
end Sys2Proof.Machine
end

section
/-! Two Std engines on a loopback can complete (O60): the two calls, the frame, and the two returns. -/

namespace Sys2Proof.Machine
open Sys2Proof.Claims
open Relation (ReflTransGen)

/-! ## Both sides in a frame -/

/-- The config bits sampled before position `n` are those of the record. -/
def ConfigBits (f : StdFrame) (n : Nat) (buf : BitBuffer) : Prop :=
  ∀ k < 8, 3 * k + 328 < n → rawBit buf k = rawBit (encStdCfg f.r) k

/-- Both sides run, in step, each right before a label's first call. -/
structure StdLocked (f : StdFrame) (n m : Nat) (s u : State) : Prop where
  wired : StdWired f s u
  here : SendAt f.st f.waitA n s
  enters : s.delayLeft = 0 ∧ isEntry s.sub = true
  there : PollAt f.waiter f.r f.waitB m u
  enters' : u.delayLeft = 0 ∧ isEntry u.sub = true
  config : ConfigBits f n s.rxbuf
  state : StateBits f m u.rxbuf
  counts : f.waiter = .interruptCounted → Counts (drops n) m u
  inStep : FrameInStep f.waiter n m

section
variable {f : StdFrame} {s t u v : State} {n m : Nat}

theorem ConfigBits.succ (h : ConfigBits f n s.rxbuf) (hst : StdSide f.a s) (hrx : SendSampled n s t)
    (hdata : sendSamples n → s.wDataIn = rawBit (encStdCfg f.r) ((n - 328) / 3)) : ConfigBits f (n + 1) t.rxbuf := by
  obtain ⟨hN, hbits⟩ := hst.rxbuf_bits f.instA
  have hN : s.rxbuf.N = 8 := hN
  intro k hk hlt
  rcases hrx with ⟨ht, hno⟩ | ⟨ht, hn⟩
  · have hpast : 3 * k + 328 ≠ n := fun hn => hno ⟨by omega, by omega, by omega⟩
    rw [ht, h k hk (by omega)]
  · obtain ⟨hlo, hhi, hmod⟩ := id hn
    rw [ht, rawBit_rawPutBit _ _ _ _ (by omega)]
    split
    case isTrue heq => rw [hdata hn, heq]
    case isFalse hne => exact h k hk (by omega)

theorem stdConfigOf_encStdCfg {r : StdConfig} (hr : validStdConfig r = true) : stdConfigOf (encStdCfg r) = r := by
  have hs : State.reset.cur = none := rfl
  obtain ⟨B, henc, hdec⟩ := stdRecordsRoundTrip.2 r State.reset State.reset hr hs hs
  have hB : Result.buffer (encStdCfg r) = .buffer B := returned_result ((exec_encStdCfg hs r).symm.trans henc)
  obtain rfl := Result.buffer.inj hB
  rw [exec_decStdCfg_of_long hs (encStdCfg_N r).ge] at hdec
  exact (Result.stdConfig.inj (congrArg State.result (Host.Outcome.next.inj hdec))).1

/-- Once all config bits are sampled, `RXBUF` is the record's frame. -/
theorem ConfigBits.rxbuf_eq (h : ConfigBits f n s.rxbuf) (hst : StdSide f.a s) (hn : 349 < n) :
    s.rxbuf = encStdCfg f.r := by
  obtain ⟨hN, -⟩ := hst.rxbuf_bits f.instA
  have hN : s.rxbuf.N = 8 := hN
  obtain ⟨hb, -⟩ := (State.inv_iff s).mp hst.inv
  obtain ⟨-, hwf, -, -⟩ := (buffersOk_iff s).mp hb
  exact eq_of_rawBit_eq hwf (encStdCfg_wf f.r) (hN.trans (encStdCfg_N f.r).symm) (by rw [hN]; rfl)
    fun k hk => h k (by omega) (by omega)

theorem drops_le_prompts (n : Nat) : drops n ≤ prompts n := by
  unfold drops prompts
  split_ifs <;> omega

/-! ## A label of either side -/

/-- The throttle's side goes on: its label's call, its delay, and the edge at the joystick's side. -/
theorem StdLocked.advanceA (h : StdLocked f n m s u) (hn : n < 351) (hmay : SendMay f.waiter n m)
    (hstep : FrameInStep f.waiter (n + 1) m) :
    ∃ s' u', ReflTransGen Runs ⟨s, u⟩ ⟨s', u'⟩ ∧ StdLocked f (n + 1) m s' u' := by
  obtain ⟨hwired, hat, ⟨hdelay, hentry⟩, hat', ⟨hdelay', hentry'⟩, hconfig, hstate, hcounts, hin⟩ := h
  have hst := hwired.here.toStdSide
  have hline : s.wCtlIn = pollLine f.waiter m := hwired.ctlIn.trans hat'.line
  obtain ⟨t, hexec, hadv⟩ := sendStd_advances hst f.instA hat hdelay hentry hn fun v hv => hline.trans (hmay.waits v hv)
  have w := exec_wrote hexec
  have hmoved := hwired.moveA (hwired.here.of_exec rfl (.inr hat.cur) hexec) w.wCtlIn w.wDataIn
  have hconfig' : ConfigBits f (n + 1) t.rxbuf := by
    refine hconfig.succ hst hadv.sampled fun hs => ?_
    obtain ⟨hlo, hbit⟩ := hmay.samples hs
    rw [hwired.dataIn, hat'.data hlo, hbit]
  obtain ⟨s', hgo, hwired', hlater, hdone⟩ := hmoved.waitA
  have hrun := ReflTransGen.head (Runs.engineA (u := u) hat.cur hexec) hgo
  have hhere : SendAt f.st f.waitA (n + 1) s' := hadv.at_succ.aside hlater.aside
  have henters : s'.delayLeft = 0 ∧ isEntry s'.sub = true := ⟨hdone, by rw [hlater]; exact hadv.entry⟩
  have hconfig'' : ConfigBits f (n + 1) s'.rxbuf := by rw [hlater]; exact hconfig'
  have hside := connect_aside t u
  have hdelay'' : (connect t u).delayLeft = 0 := by
    rw [connect_eq hmoved.here.dirs]
    exact hdelay'
  have hcount : ∃ u', ReflTransGen Runs ⟨s', connect t u⟩ ⟨s', u'⟩ ∧ StdWired f s' u' ∧ Aside (connect t u) u' ∧
      u'.delayLeft = (connect t u).delayLeft ∧ (f.waiter = .interruptCounted → Counts (drops (n + 1)) m u') := by
    cases hw : f.waiter with
    | polling => exact ⟨connect t u, .refl, hwired', rfl, rfl, nofun⟩
    | interruptCounted =>
      obtain ⟨hattached, hpending, hcounted⟩ := hcounts hw
      rw [drops_succ]
      have hedge : (connect t u).edgePending = if sendLine n && !sendLine (n + 1) then 1 else 0 := by
        rw [connect_eq hmoved.here.dirs, ← hat.line, ← hadv.at_succ.line, ← hwired.ctlOut]
        show (if u.attached && u.wCtlIn && !t.outCtl then u.edgePending + 1 else u.edgePending) = _
        rw [hattached, hpending]
        rfl
      obtain ⟨u', hgo, hend, hside', hdelay, hcounts'⟩ := hwired'.count (m := m) (by rw [hside]; exact hattached) hedge
        hin.pulses.behind (by rw [connect_eq hmoved.here.dirs]; exact hcounted)
      exact ⟨u', hgo, hend, hside', hdelay, fun _ => hcounts'⟩
  obtain ⟨u', hgo', hend, hside', hleft, hcounts'⟩ := hcount
  have hthere : PollAt f.waiter f.r f.waitB m u' := (hat'.aside hside).aside hside'
  refine ⟨s', u', hrun.trans hgo', hend, hhere, henters, hthere, ⟨hleft.trans hdelay'', ?_⟩, hconfig'', ?_, hcounts',
    hstep⟩
  · rw [hside', hside]
    exact hentry'
  · rw [hside', hside]
    exact hstate

/-- The joystick's side goes on: its label's call and its delay. -/
theorem StdLocked.advanceB (h : StdLocked f n m s u) (hm : m < 303) (hmay : PollMay f.waiter n m)
    (hstep : FrameInStep f.waiter n (m + 1)) :
    ∃ s' u', ReflTransGen Runs ⟨s, u⟩ ⟨s', u'⟩ ∧ StdLocked f n (m + 1) s' u' := by
  obtain ⟨hwired, hat, ⟨hdelay, hentry⟩, hat', ⟨hdelay', hentry'⟩, hconfig, hstate, hcounts, hin⟩ := h
  have hst := hwired.there.toStdSide
  have hline : u.wCtlIn = sendLine n := hwired.ctlOut.trans hat.line
  have hone (hw : f.waiter = .interruptCounted) (h3 : stage m = 3) : u.edgeCnt - u.baseCnt = 1 := by
    obtain ⟨-, hdrops⟩ := hmay.back h3
    rw [(hcounts hw).counted (by omega), hdrops, Nat.add_sub_cancel_left]
    rfl
  have hfree : PollFree f.waiter m u :=
    ⟨fun hidle => hline.trans (hmay.idle hidle), fun hw h2 => hline.trans (hmay.drop hw h2),
      fun _ h3 => hline.trans (hmay.back h3).1, hone⟩
  obtain ⟨v, hexec, hadv⟩ := pollStd_advances hst f.instB (hst.cfg ▸ rfl) hat' hdelay' hentry' hm hfree
  have w := exec_wrote hexec
  have hmoved := hwired.moveB (hwired.there.of_exec rfl (.inr hat'.cur) hexec) w.wCtlIn w.wDataIn
  have hstate' : StateBits f (m + 1) v.rxbuf := by
    refine hstate.succ hst hadv.sampled fun hs => ?_
    obtain ⟨hlo, hhi, hbit⟩ := hmay.samples hs
    rw [hwired.dataOut, hat.data hlo hhi, hbit]
  have hcounts' : f.waiter = .interruptCounted → Counts (drops n) (m + 1) v := by
    intro hw
    obtain ⟨hattached, hpending, hcounted⟩ := hcounts hw
    obtain ⟨hcnt, hpend, hkept⟩ := edges_of_wrote w
    obtain ⟨hcapture, hkeep⟩ := hadv.base hw
    refine ⟨hkept.trans hattached, hpend.trans hpending, fun h2 => ?_⟩
    have hheard := heard_succ m
    rcases stage_succ m with ⟨_, h1⟩ | ⟨h0, -⟩ | ⟨h0, -⟩ | ⟨_, h1⟩
    · omega
    · have hasked : asked f.waiter m = heard m := by
        rw [asked, h0, hw]
        rfl
      have hnone : drops n - heard (m + 1) = 0 := by
        have hprompt := (drops_le_prompts n).trans hin.pulses.prompt
        rw [h0] at hheard
        simp at hheard
        omega
      rw [hcapture h0, hcnt, BitVec.sub_self, hnone]
    · rw [hkeep (by omega), hcnt, hheard, h0]
      exact hcounted (by omega)
    · omega
  obtain ⟨u', hgo, hwired', hlater, hdone⟩ := hmoved.waitB
  have hside := connect_aside v s
  have hthere : PollAt f.waiter f.r f.waitB (m + 1) u' := hadv.at_succ.aside hlater.aside
  refine ⟨_, u', .head (.engineB hat'.cur hexec) hgo, hwired', hat.aside hside, ⟨?_, ?_⟩, hthere, ⟨hdone, ?_⟩, ?_, ?_,
    ?_, hstep⟩
  · rw [connect_eq hmoved.there.dirs]
    exact hdelay
  · rw [hside]
    exact hentry
  · rw [hlater]
    exact hadv.entry
  · rw [hside]
    exact hconfig
  · rw [hlater]
    exact hstate'
  · intro hw
    obtain ⟨hattached, hpending, hcounted⟩ := hcounts' hw
    rw [hlater]
    exact ⟨hattached, hpending, hcounted⟩

/-- From there the two sides get past their last positions. -/
theorem StdLocked.reaches_end {left : Nat} (hleft : n + m + left = 654) (hn : n ≤ 351) (hm : m ≤ 303)
    (h : StdLocked f n m s u) :
    ∃ s' u', ReflTransGen Runs ⟨s, u⟩ ⟨s', u'⟩ ∧ StdLocked f 351 303 s' u' := by
  induction left generalizing n m s u with
  | zero =>
    obtain ⟨rfl, rfl⟩ : n = 351 ∧ m = 303 := by omega
    exact ⟨s, u, .refl, h⟩
  | succ left ih =>
    rcases frame_progress h.inStep hn hm (by omega) with ⟨hlt, hmay, hstep⟩ | ⟨hlt, hmay, hstep⟩
    · obtain ⟨s', u', hgo, hnext⟩ := h.advanceA hlt hmay hstep
      obtain ⟨s'', u'', hrest, hend⟩ := ih (by omega) (by omega) hm hnext
      exact ⟨s'', u'', hgo.trans hrest, hend⟩
    · obtain ⟨s', u', hgo, hnext⟩ := h.advanceB hlt hmay hstep
      obtain ⟨s'', u'', hrest, hend⟩ := ih (by omega) hn (by omega) hnext
      exact ⟨s'', u'', hgo.trans hrest, hend⟩

/-- Past the last positions a turn of each side returns 0, with the other side's record. -/
theorem StdLocked.returns (h : StdLocked f 351 303 s u) (hst : validStdState f.st = true)
    (hr : validStdConfig f.r = true) :
    ∃ s' u', ReflTransGen Runs ⟨s, u⟩ ⟨s', u'⟩ ∧ (s'.cur = none ∧ s'.result = .code 0 ∧ s'.outStdCfg = f.r) ∧
      (u'.cur = none ∧ u'.result = .code 0 ∧ u'.outState = f.st) := by
  obtain ⟨hwired, hat, ⟨hdelay, -⟩, hat', ⟨hdelay', -⟩, hconfig, hstate, -, -⟩ := h
  obtain ⟨t, hexec, hcur, -, hzero, hcfg⟩ := sendStd_ends hwired.here.toStdSide f.instA hat hdelay
  rw [hconfig.rxbuf_eq hwired.here.toStdSide (by decide), stdConfigOf_encStdCfg hr] at hcfg
  have w := exec_wrote hexec
  have hmoved := hwired.moveA (hwired.here.of_exec rfl (.inr hat.cur) hexec) w.wCtlIn w.wDataIn
  have hside := connect_aside t u
  have hdelay'' : (connect t u).delayLeft = 0 := by
    rw [connect_eq hmoved.here.dirs]
    exact hdelay'
  have hrx : (connect t u).rxbuf = encStdState f.st := by
    rw [hside]
    exact hstate.rxbuf_eq hwired.there.toStdSide (by decide)
  have hthere : PollAt f.waiter f.r f.waitB 303 (connect t u) := hat'.aside hside
  obtain ⟨v, hexec', hcur', hrecord, hright⟩ := pollStd_ends hmoved.there.toStdSide f.instB hthere hdelay''
  rw [hrx] at hrecord hright
  have hzero' := hright (encStdState_checksum f.st)
  refine ⟨connect v t, v, .head (.engineA hat.cur hexec) (.single (.engineB hthere.cur hexec')), ?_, hcur', hzero', ?_⟩
  · rw [connect_aside v t]
    exact ⟨hcur, hzero, hcfg⟩
  · exact (hrecord hzero').trans (stdStateOf_encStdState _ hst)

end

/-! ## HOST's two calls -/

section
variable {l : Link}

/-- From a ready pair, the two calls lead to the first label on both sides. -/
theorem stdLocked_of_calls (h : l.ready = true) (ha : isInstance l.a.cfg .std .throttleClient = true)
    (hb : isInstance l.b.cfg .std .joystickClient = true)
    (hattached : l.b.cfg.waiter = .interruptCounted → l.b.attached = true) :
    ∃ l₁ l₂, linkTurn (.onA (.issue 0x63)) l = some l₁ ∧ linkTurn (.onB (.issue 0x62)) l₁ = some l₂ ∧
      StdLocked (l.stdFrame ha hb) 0 0 l₂.a l₂.b := by
  obtain ⟨hwired, ⟨hcur, hline⟩, hcur', hline', hpending⟩ := stdWired_of_ready h ha hb
  have hst := hwired.here
  obtain ⟨t, hexec, hat, hdelay, hentry, hline''⟩ := sendStd_starts (st := l.a.args.stateRec)
    (wait := l.a.args.waitMicros) ha (stdStrict_of_wf hst.wf ha) hst.done hcur hline
  have w := exec_wrote hexec
  have hmoved := hwired.moveA (hst.of_exec rfl (.inl hcur) hexec) w.wCtlIn w.wDataIn
  have hst' := hmoved.there
  have hside := connect_aside t l.b
  have hpending' : (connect t l.b).edgePending = 0 := by
    rw [connect_eq hmoved.here.dirs]
    show (if l.b.attached && l.b.wCtlIn && !t.outCtl then l.b.edgePending + 1 else l.b.edgePending) = 0
    rw [hline'', hline, hpending]
    simp
  obtain ⟨v, hexec', hat', hdelay', hentry', -⟩ := pollStd_starts (w := l.b.cfg.waiter) (r := l.b.args.stdCfg)
    (wait := l.b.args.waitMicros) (s := connect t l.b) (hst'.cfg ▸ hb)
    (hst'.cfg ▸ stdStrict_of_wf hst'.wf hb) hst'.done (by rw [hside]; exact hcur') (by rw [hside]; exact hline')
  have hrest : (connect t l.b).cur = none := by rw [hside]; exact hcur'
  have w' := exec_wrote hexec'
  obtain ⟨-, hpend, hkept⟩ := edges_of_wrote w'
  have hmoved' := hmoved.moveB (hst'.of_exec rfl (.inl hrest) hexec') w'.wCtlIn w'.wDataIn
  refine ⟨⟨t, connect t l.b⟩, ⟨connect v t, v⟩, linkTurn_of_turn_a rfl ((hst.turn_issue rfl hcur).trans hexec),
    linkTurn_of_turn_b rfl ((hst'.turn_issue rfl hrest).trans hexec'), hmoved', hat.aside (connect_aside v t), ⟨?_, ?_⟩,
    hat', ⟨hdelay', hentry'⟩, fun k _ hk => by omega, fun k _ hk => by omega, fun hw => ⟨?_, ?_, fun h2 => ?_⟩,
    frameInStep_start _⟩
  · rw [connect_eq hmoved'.there.dirs]
    exact hdelay
  · rw [connect_aside v t]
    exact hentry
  · rw [hkept, hside]
    exact hattached hw
  · exact hpend.trans hpending'
  · exact absurd h2 (by decide)

end

/-- Settles O60: the two calls, then turns of ENGINE at whichever side can go on, to the return on both. -/
theorem stdLoopbackCanComplete : Obligations.StdLoopbackCanComplete := by
  intro l hready ha hb hattached hst hr
  obtain ⟨l₁, l₂, hsend, hpoll, hlocked⟩ := stdLocked_of_calls hready ha hb hattached
  obtain ⟨s, u, hgo, hend⟩ := hlocked.reaches_end (left := 654) rfl (by omega) (by omega)
  obtain ⟨s', u', hlast, ⟨hcur, hzero, hcfg⟩, hcur', hzero', hstate⟩ := hend.returns hst hr
  obtain ⟨es, hcalls, hrun⟩ := linkTurns_of_runs (hgo.trans hlast)
  refine ⟨.onA (.issue 0x63) :: .onB (.issue 0x62) :: es, ⟨s', u'⟩, ?_, ?_, hcur, hcur', hzero, hzero', hstate, hcfg⟩
  · rw [callsOf_call rfl, callsOf_call rfl, hcalls]
  · exact (linkTurns_of_turn hsend).trans ((linkTurns_of_turn hpoll).trans hrun)

end Sys2Proof.Machine
end

section
/-! Reset (O48) and the frame abort (O40): both are what the definitions of construction and of `abort` say. -/

set_option Elab.async false

namespace Sys2Proof.Machine
open Sys2Proof.Claims

/-! ## Reset -/

/-- Settles O48: every element is the field of `State.construct` that the table names, and reset is a construction. -/
theorem resetHasTheStatedValues : Obligations.ResetHasTheStatedValues := by
  refine ⟨fun c => ?construct, ?reset⟩
  case construct => exact ⟨rfl, rfl, rfl, rfl, rfl, rfl, rfl, rfl, rfl, rfl, rfl, rfl⟩
  case reset =>
    exact ⟨rfl, rfl, rfl, rfl, rfl, rfl, rfl, rfl, rfl, rfl, rfl, rfl, rfl, rfl, rfl, rfl, rfl⟩

/-! ## The frame abort -/

/-- A running data-plane operation makes the step of its own meaning, which an abort in progress comes before (rule
R232). -/
theorem exec_frame_orAbort {i : Instr} {s : State} (hi : isDataPlane i = true) (hcur : s.cur = some i)
    (hdelay : s.delayLeft = 0) : ∃ own, exec i s = orAbort s own := by
  cases i with
  | pollPro | sendPro | pollStd | sendStd => exact ⟨_, running_on hcur hdelay⟩
  | _ => cases hi

theorem exec_abortCtl {i : Instr} {code : Word} {s : State} (hi : isDataPlane i = true)
    (hat : s.runsAt i (.abortCtl code)) : exec i s = abortCtlStep code s := by
  obtain ⟨hcur, hdelay, hsub⟩ := hat
  obtain ⟨own, hown⟩ := exec_frame_orAbort hi hcur hdelay
  simp only [hown, orAbort, hsub]

theorem exec_abortData {i : Instr} {code : Word} {s : State} (hi : isDataPlane i = true)
    (hat : s.runsAt i (.abortData code)) : exec i s = abortDataStep code s := by
  obtain ⟨hcur, hdelay, hsub⟩ := hat
  obtain ⟨own, hown⟩ := exec_frame_orAbort hi hcur hdelay
  simp only [hown, orAbort, hsub]

theorem idleCtl_eq (c : Config) : idleCtl c = decide (c.variant = .std ∧ c.role = .throttleClient) :=
  (Bool.decide_and _ _).symm

theorem abortCtlStep_eq_called (code : Word) (s : State) : abortCtlStep code s = .next
    { s.called (.pinWrite .ctlOut (idleCtl s.cfg)) with outCtl := idleCtl s.cfg, sub := .abortData code } := rfl

theorem abortDataStep_eq_ends (code : Word) (s : State) : abortDataStep code s = .next
    { s.ends (.code code) (.pinWrite .dataOut false) with outData := false, err := code } := rfl

/-- Every class but NoPeer has the back-off of variant and role (rule R220). -/
theorem failureCode_of_ne_noPeer {f : FrameFailure} (hf : f ≠ .noPeer) (c : Config) : failureCode f c = c.backoff := by
  cases f with
  | noPeer => exact absurd rfl hf
  | peerUnresponsive | desync | checksumFailure => rfl

/-- Settles O40: an abort's two writes come before a data-plane operation's own step; the codes are R220's table. -/
theorem abortRestoresIdleAndReturns : Obligations.AbortRestoresIdleAndReturns := by
  refine ⟨fun i code s hi hcur hdelay => ⟨fun hsub => ?ctl, fun hsub => ?data⟩,
    fun c => ⟨rfl, fun f hf => ⟨fun hv => ?pro, fun hv hr => ?stdJc, fun hv hr => ?stdTc⟩⟩⟩
  case ctl => rw [exec_abortCtl hi ⟨hcur, hdelay, hsub⟩, abortCtlStep_eq_called, idleCtl_eq]
  case data => rw [exec_abortData hi ⟨hcur, hdelay, hsub⟩, abortDataStep_eq_ends]
  case pro => rw [failureCode_of_ne_noPeer hf, Config.backoff, hv]
  case stdJc => rw [failureCode_of_ne_noPeer hf, Config.backoff, hv, hr]
  case stdTc => rw [failureCode_of_ne_noPeer hf, Config.backoff, hv, hr]

end Sys2Proof.Machine
end

section
/-! One probe (O42): a wait of 0 (or of 2^31 and more) puts the outer deadline at the clock's own value, so the first
deadline test of a silent peer is expired, and the abort follows it. -/

set_option Elab.async false

namespace Sys2Proof.Machine
open Sys2Proof.Claims

/-! ## A deadline that is expired at once -/

theorem outerDeadline_of_probe {wait : Word} (h : wait = 0 ∨ 2 ^ 31 ≤ wait.toNat) (now : Word) :
    outerDeadline now wait = now := by
  have hzero : (if wait.toNat < 2 ^ 31 then wait else 0) = 0 := by
    rcases h with rfl | h
    · rfl
    · exact if_neg (by omega)
  rw [outerDeadline, hzero]
  exact BitVec.add_zero now

theorem expiredAt_self (now : Word) : expiredAt now now = true := by
  rw [expiredAt_iff, BitVec.sub_self]
  exact .inl rfl

/-! ## From the failure to the return -/

/-- What the two writes of `abort(code)` and its return leave, with CTL_OUT's idle level (rule R232). -/
def State.aborted (level : Bool) (code : Word) (s : State) : State :=
  { (s.called (.pinWrite .ctlOut level)).ends (.code code) (.pinWrite .dataOut false) with
    outCtl := level, outData := false, err := code }

section
variable {i : Instr} {f : FrameFailure} {s t : State} {level : Bool}

theorem execSteps_abort {code : Word} (hi : isDataPlane i = true) (hidle : idleCtl s.cfg = level)
    (hat : s.runsAt i (.abortCtl code)) : execSteps i 2 s = .next (s.aborted level code) := by
  obtain ⟨hcur, hdelay, -⟩ := id hat
  have hfirst := exec_abortCtl hi hat
  rw [abortCtlStep_eq_called, hidle] at hfirst
  exact (execSteps_of_next hfirst).trans (execSteps_of_next (exec_abortData hi ⟨hcur, hdelay, rfl⟩))

/-- A step that fails, and the abort it begins. -/
theorem execSteps_fails (hi : isDataPlane i = true) (h : exec i s = .next (fails f t)) (hidle : idleCtl t.cfg = level)
    (hcur : t.cur = some i) (hdelay : t.delayLeft = 0) :
    execSteps i 3 s = .next ((fails f t).aborted level (failureCode f t.cfg)) :=
  (execSteps_of_next h).trans (execSteps_abort hi hidle ⟨hcur, hdelay, rfl⟩)

/-- A wait in cycle 0 that finds the other level and its deadline expired: one read, one test, and the abort. -/
theorem execSteps_probe {v : Bool} {p : Phase} {onward : State → State} (hi : isDataPlane i = true)
    (hidle : idleCtl s.cfg = level) (hwait : ∀ u : State, u.cyc = 0 → waitsFor v i p .first onward f u)
    (hat : s.standsAt i p (.first .read)) (hcyc : s.cyc = 0) (hv : s.wCtlIn = !v)
    (hexp : expiredAt s.dl s.now = true) :
    execSteps i 4 s = .next
      ((fails f ((s.called (.pinRead .ctlIn (!v))).called (.clockRead s.now))).aborted level
        (failureCode f s.cfg)) := by
  obtain ⟨hcur, hdelay, hph, -⟩ := id hat
  obtain ⟨-, hother, -⟩ := hwait s hcyc
  obtain ⟨-, -, hexpired, -⟩ := hwait { s.called (.pinRead .ctlIn (!v)) with sub := .first .test } hcyc
  exact (execSteps_of_next (hother hat hv)).trans
    (execSteps_fails (t := (s.called (.pinRead .ctlIn (!v))).called (.clockRead s.now)) hi
      (hexpired ⟨hcur, hdelay, hph, rfl⟩ hexp) hidle hcur hdelay)

end

/-! ## The Pro engine -/

theorem rawBit_encProState_zero (st : JoystickState) : rawBit (encProState st) 0 = st.x.getLsbD 0 := by
  have hfield := encProState_field (r := st) (f := ⟨⟨0, 8⟩, st.x.toNat &&& 0xFF⟩) (.head _)
  have hbit := testBit_rawField (encProState st) 0 8 0
  rw [hfield, Nat.testBit_mod_two_pow, Nat.testBit_and, BitVec.testBit_toNat] at hbit
  simpa using hbit.symm

section
variable {wait : Word} {s : State}

/-- In cycle 0 the first wait of a Pro operation fails as NoPeer (rule R186). -/
theorem beginAbort_proFirstWait (hcyc : s.cyc = 0) (c : PrimCall) :
    beginAbort (proFirstWait (s.called c)) (s.called c) = .next (fails .noPeer (s.called c)) := by
  have hfirst : proFirstWait (s.called c) = .noPeer := if_pos hcyc
  rw [hfirst, beginAbort_eq_fails]

/-- A SEND.PRO that probes, after these calls (rule R181). -/
def State.sendProbing (st : JoystickState) (wait : Word) (p : Phase) (sub : Sub) (calls : List PrimCall) (s : State) :
    State :=
  { s.started (.sendPro st wait) p 0 sub calls with
    txbuf := encProState st, rxbuf := ⟨19, [0, 0, 0]⟩, dl := s.now }

/-- SEND.PRO drives the first bit and its clock, and waits once. -/
theorem sendPro_probes {st : JoystickState} (hcur : s.cur = none) (hdone : s.setupDone = true)
    (hwait : wait = 0 ∨ 2 ^ 31 ≤ wait.toNat) (hinst : isInstance s.cfg .pro .throttleClient = true)
    (hv : s.wCtlIn = false) : execSteps (.sendPro st wait) 7 s = .next
      { s.returned (.code s.cfg.noPeerCode)
          [.pinWrite .dataOut false, .pinWrite .ctlOut false, .clockRead s.now, .pinRead .ctlIn false,
            .pinWrite .ctlOut true, .pinWrite .dataOut (st.x.getLsbD 0), .clockRead s.now] with
        txbuf := encProState st, rxbuf := ⟨19, [0, 0, 0]⟩, dl := s.now, outCtl := false, outData := false,
        failure := some .noPeer, err := s.cfg.noPeerCode } := by
  have hstart : exec (.sendPro st wait) s = .next (s.sendProbing st wait .a .start [.clockRead s.now]) := by
    rw [exec_sendPro_rest hcur hinst hdone, sendProIdle, outerDeadline_of_probe hwait]
    rfl
  have hbit : exec (.sendPro st wait) (s.sendProbing st wait .a .start [.clockRead s.now]) = .next
      { s.sendProbing st wait .b .start [.pinWrite .dataOut (st.x.getLsbD 0), .clockRead s.now] with
        outData := st.x.getLsbD 0 } := by
    rw [← rawBit_encProState_zero]
    exact exec_sendPro_at ⟨rfl, rfl, rfl, rfl⟩ fun hph hsub =>
      (sendProStep_a hph hsub).trans (sendProA_of_bit (encProState_N st) (Nat.zero_le 55))
  have hclock : exec (.sendPro st wait)
      { s.sendProbing st wait .b .start [.pinWrite .dataOut (st.x.getLsbD 0), .clockRead s.now] with
        outData := st.x.getLsbD 0 } = .next
      { s.sendProbing st wait .c (.first .read)
          [.pinWrite .ctlOut true, .pinWrite .dataOut (st.x.getLsbD 0), .clockRead s.now] with
        outData := st.x.getLsbD 0, outCtl := true } :=
    exec_sendPro_at ⟨rfl, rfl, rfl, rfl⟩ sendProStep_b
  have hwaitC : ∀ u : State, u.cyc = 0 → waitsFor true (.sendPro st wait) .c .first
      (fun s => goto .d s.cyc .start s) .noPeer u := fun u hcyc =>
    waitsFor_of_waitStep (fun pos hat => exec_sendPro_at hat sendProStep_c) (fun _ c => rfl)
      (beginAbort_proFirstWait hcyc)
  rw [execSteps_of_next hstart, execSteps_of_next hbit, execSteps_of_next hclock]
  exact Eq.trans (execSteps_probe rfl (idleCtl_pro hinst) hwaitC ⟨rfl, rfl, rfl, rfl⟩ rfl hv (expiredAt_self _)) rfl

/-- POLL.PRO waits once. -/
theorem pollPro_probes {r : ProConfig} (hcur : s.cur = none) (hdone : s.setupDone = true)
    (hwait : wait = 0 ∨ 2 ^ 31 ≤ wait.toNat) (hinst : isInstance s.cfg .pro .joystickClient = true)
    (hv : s.wCtlIn = false) : execSteps (.pollPro r wait) 5 s = .next
      { s.returned (.code s.cfg.noPeerCode)
          [.pinWrite .dataOut false, .pinWrite .ctlOut false, .clockRead s.now, .pinRead .ctlIn false,
            .clockRead s.now] with
        txbuf := encProCfg s.cfg.ledCode r, rxbuf := ⟨56, [0, 0, 0, 0, 0, 0, 0]⟩, dl := s.now,
        outCtl := false, outData := false, failure := some .noPeer, err := s.cfg.noPeerCode } := by
  have hstart : exec (.pollPro r wait) s = .next
      { s.started (.pollPro r wait) .a 0 (.first .read) [.clockRead s.now] with
        txbuf := encProCfg s.cfg.ledCode r, rxbuf := ⟨56, [0, 0, 0, 0, 0, 0, 0]⟩, dl := s.now } := by
    rw [exec_pollPro_rest hcur hinst hdone, pollProIdle, outerDeadline_of_probe hwait]
    rfl
  have hwaitA : ∀ u : State, u.cyc = 0 → waitsFor true (.pollPro r wait) .a .first
      (fun s => goto .b s.cyc .start s) .noPeer u := fun u hcyc =>
    waitsFor_of_waitStep (fun pos hat => exec_pollPro_at hat pollProStep_a) (fun _ c => rfl)
      (beginAbort_proFirstWait hcyc)
  exact Eq.trans (execSteps_of_next hstart)
    (Eq.trans (execSteps_probe rfl (idleCtl_pro hinst) hwaitA ⟨rfl, rfl, rfl, rfl⟩ rfl hv (expiredAt_self _)) rfl)

end

/-! ## The Std engine -/

section
variable {wait : Word} {s : State}

/-- SEND.STD waits once. -/
theorem sendStd_probes {st : JoystickState} (hcur : s.cur = none) (hdone : s.setupDone = true)
    (hstrict : s.cfg.stdStrict = false) (hwait : wait = 0 ∨ 2 ^ 31 ≤ wait.toNat)
    (hinst : isInstance s.cfg .std .throttleClient = true) (hv : s.wCtlIn = false) :
    execSteps (.sendStd st wait) 5 s = .next
      { s.returned (.code s.cfg.noPeerCode)
          [.pinWrite .dataOut false, .pinWrite .ctlOut true, .clockRead s.now, .pinRead .ctlIn false,
            .clockRead s.now] with
        txbuf := encStdState st, rxbuf := ⟨8, [0]⟩, dl := s.now, outCtl := true, outData := false,
        failure := some .noPeer, err := s.cfg.noPeerCode } := by
  have hstart : exec (.sendStd st wait) s = .next
      { s.started (.sendStd st wait) .s1 0 (.first .read) [.clockRead s.now] with
        txbuf := encStdState st, rxbuf := ⟨8, [0]⟩, dl := s.now } := by
    rw [exec_sendStd_rest hcur hinst hstrict hdone, sendStdS0, outerDeadline_of_probe hwait]
    rfl
  have hwaitS1 : ∀ u : State, u.cyc = 0 → waitsFor true (.sendStd st wait) .s1 .first
      (fun s => { s with sub := .deadline }) .noPeer u := fun u _ =>
    waitsFor_of_waitStep (fun pos hat => exec_sendStd_at hat sendStdStep_s1) (fun _ c => rfl) (fun c => rfl)
  exact Eq.trans (execSteps_of_next hstart)
    (Eq.trans (execSteps_probe rfl (idleCtl_stdTc hinst) hwaitS1 ⟨rfl, rfl, rfl, rfl⟩ rfl hv (expiredAt_self _)) rfl)

/-- A POLL.STD that probes, after these calls and with this baseline (rules R174, R201). -/
def State.pollProbing (r : StdConfig) (wait base : Word) (p : Phase) (sub : Sub) (calls : List PrimCall) (s : State) :
    State :=
  { s.started (.pollStd r wait) p 0 sub calls with
    txbuf := encStdCfg r, rxbuf := ⟨64, [0, 0, 0, 0, 0, 0, 0, 0]⟩, dl := s.now, req := false, baseCnt := base }

variable {r : StdConfig}

theorem exec_pollStd_probe (hcur : s.cur = none) (hdone : s.setupDone = true) (hstrict : s.cfg.stdStrict = false)
    (hwait : wait = 0 ∨ 2 ^ 31 ≤ wait.toNat) (hinst : isInstance s.cfg .std .joystickClient = true) :
    exec (.pollStd r wait) s = .next (s.pollProbing r wait s.baseCnt .p1 (.first .read) [.clockRead s.now]) := by
  rw [exec_pollStd_rest hcur hinst hstrict hdone, pollStdP0, outerDeadline_of_probe hwait]
  rfl

/-- With the pulse line at 0, the ready wait of POLL.STD is the one wait. -/
theorem pollStd_probes_low (hcur : s.cur = none) (hdone : s.setupDone = true) (hstrict : s.cfg.stdStrict = false)
    (hwait : wait = 0 ∨ 2 ^ 31 ≤ wait.toNat) (hinst : isInstance s.cfg .std .joystickClient = true)
    (hv : s.wCtlIn = false) : execSteps (.pollStd r wait) 5 s = .next
      { s.returned (.code s.cfg.noPeerCode)
          [.pinWrite .dataOut false, .pinWrite .ctlOut false, .clockRead s.now, .pinRead .ctlIn false,
            .clockRead s.now] with
        txbuf := encStdCfg r, rxbuf := ⟨64, [0, 0, 0, 0, 0, 0, 0, 0]⟩, dl := s.now, req := false,
        outCtl := false, outData := false, failure := some .noPeer, err := s.cfg.noPeerCode } := by
  have hwaitP1 : ∀ u : State, u.cyc = 0 → waitsFor true (.pollStd r wait) .p1 .first
      (fun s => goto .p2 0 (pulseEntry s.cfg.waiter) s) .noPeer u := fun u _ =>
    waitsFor_of_waitStep (fun pos hat => exec_pollStd_at hat pollStdStep_p1) (fun _ c => rfl) (fun c => rfl)
  exact Eq.trans (execSteps_of_next (exec_pollStd_probe hcur hdone hstrict hwait hinst))
    (Eq.trans (execSteps_probe rfl (idleCtl_stdJc hinst) hwaitP1 ⟨rfl, rfl, rfl, rfl⟩ rfl hv (expiredAt_self _)) rfl)

/-- With the pulse line at its idle level the ready wait is met at once, and the first `WaitForPulse` begins. -/
theorem execSteps_pollStd_ready {n : Nat} (hcur : s.cur = none) (hdone : s.setupDone = true)
    (hstrict : s.cfg.stdStrict = false) (hwait : wait = 0 ∨ 2 ^ 31 ≤ wait.toNat)
    (hinst : isInstance s.cfg .std .joystickClient = true) (hv : s.wCtlIn = true) :
    execSteps (.pollStd r wait) (n + 2) s = execSteps (.pollStd r wait) n
      (s.pollProbing r wait s.baseCnt .p2 (pulseEntry s.cfg.waiter) [.pinRead .ctlIn true, .clockRead s.now]) := by
  have hready : exec (.pollStd r wait) (s.pollProbing r wait s.baseCnt .p1 (.first .read) [.clockRead s.now]) = .next
      (s.pollProbing r wait s.baseCnt .p2 (pulseEntry s.cfg.waiter) [.pinRead .ctlIn true, .clockRead s.now]) :=
    exec_pollStd_at ⟨rfl, rfl, rfl, rfl⟩ fun hph hsub =>
      Eq.trans (pollStdStep_p1 hph hsub) (waitStep_read_of_level hv)
  rw [execSteps_of_next (exec_pollStd_probe hcur hdone hstrict hwait hinst), execSteps_of_next hready]

/-- A step of the first `WaitForPulse`, with the waiter configured. -/
theorem exec_pollStd_p2 {w : Waiter} {sub : Sub} {out : Out} {u : State} (hw : u.cfg.waiter = w)
    (hplace : pulsePlace w sub = true) (hat : u.standsAt (.pollStd r wait) .p2 sub)
    (hstep : u.sub = sub → pulseStep w u.dl .toggleReq pollStdP2Done u = out) : exec (.pollStd r wait) u = out := by
  subst hw
  refine exec_pollStd_at hat fun hph hsub => ?_
  rw [pollStdStep_pulse hph (.inl rfl) (hsub ▸ hplace)]
  exact hstep hsub

/-- A POLL.STD that probes, inside its first `WaitForPulse` after the trigger (rule R172). -/
def State.pulseProbing (r : StdConfig) (wait base : Word) (sub : Sub) (calls : List PrimCall) (s : State) : State :=
  { s.pollProbing r wait base .p2 sub calls with req := true, outCtl := true }

section
variable {w : Waiter} {base : Word} {cs : List PrimCall}

theorem exec_pulseProbing_trigger (hw : s.cfg.waiter = w) :
    exec (.pollStd r wait) (s.pollProbing r wait base .p2 .trigger cs) =
      .next (s.pulseProbing r wait base (afterTrigger w) (.pinWrite .ctlOut true :: cs)) :=
  exec_pollStd_p2 hw rfl ⟨rfl, rfl, rfl, rfl⟩ pulseStep_trigger

theorem exec_pulseProbing_first_read (hw : s.cfg.waiter = .polling) (hv : s.wCtlIn = true) :
    exec (.pollStd r wait) (s.pulseProbing r wait base (.first .read) cs) =
      .next (s.pulseProbing r wait base (.first .test) (.pinRead .ctlIn true :: cs)) :=
  exec_pollStd_p2 hw rfl ⟨rfl, rfl, rfl, rfl⟩ fun hsub =>
    Eq.trans (pulseStep_first hsub) (waitStep_read_of_other hv)

theorem exec_pulseProbing_first_test (hw : s.cfg.waiter = .polling) :
    exec (.pollStd r wait) (s.pulseProbing r wait base (.first .test) cs) =
      .next (fails .noPeer
        { s.pulseProbing r wait base (.first .test) (.clockRead s.now :: cs) with pwResult := .notStarted }) :=
  exec_pollStd_p2 hw rfl ⟨rfl, rfl, rfl, rfl⟩ (pulseStep_first_test_of_expired (expiredAt_self _))

theorem exec_pollProbing_snapshot (hw : s.cfg.waiter = .interruptCounted) :
    exec (.pollStd r wait) (s.pollProbing r wait base .p2 .snapshot cs) =
      .next (s.pollProbing r wait s.edgeCnt .p2 .trigger (.counterRead s.edgeCnt :: cs)) :=
  exec_pollStd_p2 hw rfl ⟨rfl, rfl, rfl, rfl⟩ pulseStep_snapshot

theorem exec_pulseProbing_count (hw : s.cfg.waiter = .interruptCounted) :
    exec (.pollStd r wait) (s.pulseProbing r wait s.edgeCnt (.count .count) cs) =
      .next (s.pulseProbing r wait s.edgeCnt (.count .test) (.counterRead s.edgeCnt :: cs)) :=
  exec_pollStd_p2 hw rfl ⟨rfl, rfl, rfl, rfl⟩ (pulseStep_count_of_no_edge (BitVec.sub_self _))

theorem exec_pulseProbing_count_test (hw : s.cfg.waiter = .interruptCounted) :
    exec (.pollStd r wait) (s.pulseProbing r wait base (.count .test) cs) =
      .next (s.pulseProbing r wait base (.count .pin) (.clockRead s.now :: cs)) :=
  exec_pollStd_p2 hw rfl ⟨rfl, rfl, rfl, rfl⟩ (pulseStep_count_test_of_expired (expiredAt_self _))

theorem exec_pulseProbing_count_pin (hw : s.cfg.waiter = .interruptCounted) (hv : s.wCtlIn = true) :
    exec (.pollStd r wait) (s.pulseProbing r wait base (.count .pin) cs) =
      .next (fails .noPeer
        { s.pulseProbing r wait base (.count .pin) (.pinRead .ctlIn true :: cs) with pwResult := .notStarted }) :=
  exec_pollStd_p2 hw rfl ⟨rfl, rfl, rfl, rfl⟩ fun hsub => Eq.trans (pulseStep_count_pin hv hsub) rfl

end

/-- The polling waiter reads the line once after the trigger, and tests once. -/
theorem pollStd_probes_polling (hcur : s.cur = none) (hdone : s.setupDone = true) (hstrict : s.cfg.stdStrict = false)
    (hwait : wait = 0 ∨ 2 ^ 31 ≤ wait.toNat) (hinst : isInstance s.cfg .std .joystickClient = true)
    (hv : s.wCtlIn = true) (hw : s.cfg.waiter = .polling) : execSteps (.pollStd r wait) 7 s = .next
      { s.returned (.code s.cfg.noPeerCode)
          [.pinWrite .dataOut false, .pinWrite .ctlOut false, .clockRead s.now, .pinRead .ctlIn true,
            .pinWrite .ctlOut true, .pinRead .ctlIn true, .clockRead s.now] with
        txbuf := encStdCfg r, rxbuf := ⟨64, [0, 0, 0, 0, 0, 0, 0, 0]⟩, dl := s.now, req := true,
        outCtl := false, outData := false, pwResult := .notStarted, failure := some .noPeer
        err := s.cfg.noPeerCode } := by
  rw [execSteps_pollStd_ready hcur hdone hstrict hwait hinst hv, hw, pulseEntry,
    execSteps_of_next (exec_pulseProbing_trigger hw), afterTrigger,
    execSteps_of_next (exec_pulseProbing_first_read hw hv),
    execSteps_fails rfl (exec_pulseProbing_first_test hw) (idleCtl_stdJc hinst) rfl rfl]
  rfl

/-- The interrupt-counted waiter reads the counter before and after the trigger, tests once, and reads the line. -/
theorem pollStd_probes_irq (hcur : s.cur = none) (hdone : s.setupDone = true) (hstrict : s.cfg.stdStrict = false)
    (hwait : wait = 0 ∨ 2 ^ 31 ≤ wait.toNat) (hinst : isInstance s.cfg .std .joystickClient = true)
    (hv : s.wCtlIn = true) (hw : s.cfg.waiter = .interruptCounted) : execSteps (.pollStd r wait) 9 s = .next
      { s.returned (.code s.cfg.noPeerCode)
          [.pinWrite .dataOut false, .pinWrite .ctlOut false, .pinRead .ctlIn true, .clockRead s.now,
            .counterRead s.edgeCnt, .pinWrite .ctlOut true, .counterRead s.edgeCnt, .pinRead .ctlIn true,
            .clockRead s.now] with
        txbuf := encStdCfg r, rxbuf := ⟨64, [0, 0, 0, 0, 0, 0, 0, 0]⟩, dl := s.now, req := true,
        baseCnt := s.edgeCnt, outCtl := false, outData := false, pwResult := .notStarted
        failure := some .noPeer, err := s.cfg.noPeerCode } := by
  rw [execSteps_pollStd_ready hcur hdone hstrict hwait hinst hv, hw, pulseEntry,
    execSteps_of_next (exec_pollProbing_snapshot hw), execSteps_of_next (exec_pulseProbing_trigger hw), afterTrigger,
    execSteps_of_next (exec_pulseProbing_count hw), execSteps_of_next (exec_pulseProbing_count_test hw),
    execSteps_fails rfl (exec_pulseProbing_count_pin hw hv) (idleCtl_stdJc hinst) rfl rfl]
  rfl

end

/-- Settles O42: the calls of each operation up to its first wait, and the one probe of the wait. -/
theorem zeroWaitProbesOnce : Obligations.ZeroWaitProbesOnce := by
  intro st pc sc wait s hcur hdone hstrict hwait
  exact ⟨sendPro_probes hcur hdone hwait, pollPro_probes hcur hdone hwait,
    sendStd_probes hcur hdone hstrict hwait, pollStd_probes_low hcur hdone hstrict hwait,
    pollStd_probes_polling hcur hdone hstrict hwait, pollStd_probes_irq hcur hdone hstrict hwait⟩

end Sys2Proof.Machine
end

section
/-! What a step of a running operation can do, said once for O41 and O56: it returns, or it goes on at a place that comes
later in the operation, or it stays in a wait on a deadline that has not expired; and a frame failure arises only where
the operation's rules say so. -/

set_option Elab.async false

namespace Sys2Proof.Machine
open Sys2Proof.Claims

/-! ## How far an operation still has to go -/

/-- How many labels, at most, follow this one: the cycles of a Pro frame, the bits of the two Std frames (rules R181, R182,
R201, R202). -/
def phaseRank (p : Phase) (c : BitVec 7) : Nat :=
  match p with
  | .idle => 2000
  | .a => (127 - c.toNat) * 8 + 6
  | .b => (127 - c.toNat) * 8 + 5
  | .c => (127 - c.toNat) * 8 + 4
  | .d => (127 - c.toNat) * 8 + 3
  | .e => (127 - c.toNat) * 8 + 2
  | .f => (127 - c.toNat) * 8 + 1
  | .done => 0
  | .p0 => 501
  | .p1 => 500
  | .p2 => 499
  | .p3 => 300 + (127 - c.toNat)
  | .p4 => 299
  | .p5 => 298
  | .p6 => 100 + (127 - c.toNat)
  | .p7 => 0
  | .s0 => 501
  | .s1 => 500
  | .s2 => 499
  | .s3 => 300 + (127 - c.toNat)
  | .s4 => 299
  | .s5 => 100 + (127 - c.toNat)
  | .s6 => 1
  | .s7 => 0

/-- How many places of a label, at most, follow this one. The sample of SEND.STD's label S5 comes after its two waits; in
the other operations a label begins at `start`. -/
def subRank (i : Instr) (sub : Sub) : Nat :=
  match sub with
  | .start => match i with
    | .sendStd _ _ => 14
    | _ => 22
  | .snapshot => 21
  | .trigger => 20
  | .first _ => 19
  | .second _ => 18
  | .count .pin => 16
  | .count _ => 17
  | .deadline => 15
  | .seq n => 13 - n
  | _ => 0

/-- How far the operation `i` still has to go from here. It is the same at all places of one wait, and least in an abort. -/
def rank (i : Instr) (s : State) : Nat :=
  match s.sub with
  | .abortCtl _ => 1
  | .abortData _ => 0
  | sub => 2 + 32 * phaseRank s.phase s.cyc + subRank i sub

/-- No abort is in progress. -/
def notAborting (sub : Sub) : Bool :=
  match sub with
  | .abortCtl _ => false
  | .abortData _ => false
  | _ => true

/-- In a wait, how many calls come before the next deadline test (rules R162, R174). -/
def testDistance (sub : Sub) : Nat :=
  match sub with
  | .first .read => 1
  | .first .sleep => 2
  | .second .read => 1
  | .second .sleep => 2
  | .count .count => 1
  | .count .sleep => 2
  | _ => 0

section
variable {i : Instr} {s t : State}

theorem rank_eq (h : notAborting s.sub = true) :
    rank i s = 2 + 32 * phaseRank s.phase s.cyc + subRank i s.sub := by
  cases hsub : s.sub <;> simp_all [rank, notAborting]

theorem rank_abortCtl {code : Word} (h : s.sub = .abortCtl code) : rank i s = 1 := by rw [rank, h]

theorem rank_abortData {code : Word} (h : s.sub = .abortData code) : rank i s = 0 := by rw [rank, h]

theorem subRank_le (i : Instr) (sub : Sub) : subRank i sub ≤ 22 := by
  unfold subRank
  split
  case h_1 => split <;> decide
  all_goals omega

theorem rank_lt_of_phase (hs : notAborting s.sub = true) (ht : notAborting t.sub = true)
    (h : phaseRank t.phase t.cyc < phaseRank s.phase s.cyc) : rank i t < rank i s := by
  have := subRank_le i t.sub
  rw [rank_eq hs, rank_eq ht]
  omega

theorem rank_lt_of_sub (hs : notAborting s.sub = true) (ht : notAborting t.sub = true) (hph : t.phase = s.phase)
    (hcyc : t.cyc = s.cyc) (h : subRank i t.sub < subRank i s.sub) : rank i t < rank i s := by
  rw [rank_eq hs, rank_eq ht, hph, hcyc]
  omega

end

/-! ## The steps -/

/-- The step stays in a wait on `dl`: the next deadline test is one call nearer, or this was the test, and the deadline
has not expired. -/
structure InWait (i : Instr) (dl : Word) (s t : State) : Prop where
  rank_eq : rank i t = rank i s
  dl_eq : t.dl = s.dl
  test : (testDistance t.sub < testDistance s.sub ∧ t.lastRead = s.lastRead) ∨
    (expiredAt dl s.now = false ∧ t.lastRead = some s.now)

/-- What a step of the operation `i` can do, whose waits are on `dl` and in which a failure arises as `site` says. -/
structure Proceeds (i : Instr) (site : FrameFailure → State → Prop) (dl : Word) (s t : State) : Prop where
  failure : t.failure = s.failure ∨ ∃ f, t.failure = some f ∧ site f t
  progress : (t.cur = none ∧ ∃ a, t.history = a :: s.history) ∨
    (t.cur = s.cur ∧ (rank i t < rank i s ∨ InWait i dl s t))

section
variable {i : Instr} {site : FrameFailure → State → Prop} {dl : Word} {s t u : State}

theorem Proceeds.onward (hcur : t.cur = s.cur) (hf : t.failure = s.failure) (h : rank i t < rank i s) :
    Proceeds i site dl s t :=
  ⟨.inl hf, .inr ⟨hcur, .inl h⟩⟩

/-- To a later label. -/
theorem Proceeds.toPhase (hs : notAborting s.sub = true) (h : phaseRank t.phase t.cyc < phaseRank s.phase s.cyc)
    (ht : notAborting t.sub = true) (hcur : t.cur = s.cur) (hf : t.failure = s.failure) :
    Proceeds i site dl s t :=
  .onward hcur hf (rank_lt_of_phase hs ht h)

/-- To a later place of the same label. -/
theorem Proceeds.toPlace (hs : notAborting s.sub = true) (h : subRank i t.sub < subRank i s.sub)
    (hph : t.phase = s.phase) (hcyc : t.cyc = s.cyc) (ht : notAborting t.sub = true)
    (hcur : t.cur = s.cur) (hf : t.failure = s.failure) : Proceeds i site dl s t :=
  .onward hcur hf (rank_lt_of_sub hs ht hph hcyc h)

theorem Proceeds.waits (hcur : t.cur = s.cur) (hf : t.failure = s.failure) (h : InWait i dl s t) :
    Proceeds i site dl s t :=
  ⟨.inl hf, .inr ⟨hcur, .inr h⟩⟩

theorem Proceeds.returns (hcur : t.cur = none) (hf : t.failure = s.failure) {a : Answer}
    (hist : t.history = a :: s.history) : Proceeds i site dl s t :=
  ⟨.inl hf, .inl ⟨hcur, a, hist⟩⟩

theorem Proceeds.fails {f : FrameFailure} (h : beginAbort f u = .next t) (hcur : u.cur = s.cur)
    (hs : notAborting s.sub = true) (hsite : site f (Sys2Proof.Claims.fails f u)) : Proceeds i site dl s t := by
  cases h
  refine ⟨.inr ⟨f, rfl, hsite⟩, .inr ⟨hcur, .inl ?_⟩⟩
  rw [rank_eq hs, rank_abortCtl rfl]
  omega

/-- The two writes of an abort are one place after the other, and then the return (rule R232). -/
theorem orAbort_proceeds {own : State → Out} (h : orAbort s own = .next t)
    (hown : notAborting s.sub = true → own s = .next t → Proceeds i site dl s t) : Proceeds i site dl s t := by
  rcases orAbort_next h with ⟨code, hsub, rfl⟩ | ⟨code, -, rfl⟩ | ⟨hctl, hdata, h⟩
  · refine .onward rfl rfl ?_
    rw [rank_abortCtl hsub, rank_abortData rfl]
    exact Nat.zero_lt_one
  · exact .returns rfl rfl rfl
  · refine hown ?_ h
    cases hsub : s.sub <;> simp_all [notAborting]

/-- A step of `WaitPin`: the level is there, the deadline is expired, or the wait goes on (rules R162, R163). -/
theorem waitStep_proceeds {p : InPin} {v : Bool} {pos : WaitPos} {place : WaitPos → Sub}
    {reached isExpired : State → Out} (h : waitStep p v dl pos place reached isExpired s = .next t)
    (hplace : place = .first ∨ place = .second) (hsub : s.sub = place pos)
    (hreached : ∀ cs, reached { s with calls := cs } = .next t → Proceeds i site dl s t)
    (hexpired : ∀ cs l, s.sub = place .test → expiredAt dl s.now = true →
      isExpired { s with calls := cs, lastRead := l } = .next t → Proceeds i site dl s t) :
    Proceeds i site dl s t := by
  have hrank : ∀ {u : State} {q}, u.phase = s.phase → u.cyc = s.cyc → u.sub = place q → rank i u = rank i s := by
    intro u q hph hcyc hu
    rcases hplace with rfl | rfl <;> simp [rank, subRank, hu, hsub, hph, hcyc]
  have hdist : ∀ q, testDistance (place q) = testDistance (.first q) := by
    rcases hplace with rfl | rfl <;> intro q <;> cases q <;> rfl
  rcases waitStep_next h with ⟨-, -, h⟩ | ⟨rfl, -, rfl⟩ | ⟨rfl, hexp, h⟩ | ⟨rfl, hexp, rfl⟩ | ⟨rfl, rfl⟩
  · exact hreached _ h
  · refine .waits rfl rfl ⟨hrank rfl rfl rfl, rfl, .inl ⟨?_, rfl⟩⟩
    simp only [hsub, hdist]
    decide
  · exact hexpired _ _ hsub hexp h
  · exact .waits rfl rfl ⟨hrank rfl rfl rfl, rfl, .inr ⟨hexp, rfl⟩⟩
  · refine .waits rfl rfl ⟨hrank rfl rfl rfl, rfl, .inl ⟨?_, rfl⟩⟩
    simp only [hsub, hdist]
    decide

/-- A step of the counter poll loop: the result, or the wait goes on (rules R174, R175). -/
theorem countStep_proceeds {pos : CountPos} {result : PulseResult → State → Out}
    (h : countStep dl pos result s = .next t) (hsub : s.sub = .count pos)
    (hresult : ∀ r cs, (r = .finished ∨ endsPulse s.sub = true) → result r { s with calls := cs } = .next t →
      Proceeds i site dl s t) : Proceeds i site dl s t := by
  rcases countStep_next h with ⟨rfl, -, rfl⟩ | ⟨rfl, -, h⟩ | ⟨rfl, -, -, h⟩ | ⟨rfl, -, rfl⟩ | ⟨rfl, hexp, rfl⟩ |
    ⟨rfl, h⟩ | ⟨rfl, rfl⟩
  · refine .waits rfl rfl ⟨?_, rfl, .inl ⟨?_, rfl⟩⟩
    · simp [rank, subRank, hsub]
    · simp [testDistance, hsub]
  · exact hresult _ _ (.inl rfl) h
  · exact hresult _ _ (.inr (by rw [hsub]; rfl)) h
  · exact .toPlace (by simp [hsub, notAborting]) (by simp [hsub, subRank]) rfl rfl rfl rfl rfl
  · refine .waits rfl rfl ⟨?_, rfl, .inr ⟨hexp, rfl⟩⟩
    cases s.cfg.busy <;> simp [rank, subRank, hsub]
  · exact hresult _ _ (.inr (by rw [hsub]; rfl)) h
  · refine .waits rfl rfl ⟨?_, rfl, .inl ⟨?_, rfl⟩⟩
    · simp [rank, subRank, hsub]
    · simp [testDistance, hsub]

/-- The places of a `WaitForPulse` come before the deadline that follows its result. -/
theorem subRank_deadline_lt {w : Waiter} {sub : Sub} (h : pulsePlace w sub = true) :
    subRank i .deadline < subRank i sub := by
  cases sub with
  | snapshot | trigger | first | second => simp [subRank]
  | count pos => cases pos <;> simp [subRank]
  | _ => cases h

/-- A step of `WaitForPulse`: its result, or another place of it (rules R171 to R175). -/
theorem pulseStep_proceeds {w : Waiter} {tr : Trigger} {done : PulseResult → State → Out}
    (h : pulseStep w dl tr done s = .next t)
    (hdone : ∀ r cs l, pulsePlace w s.sub = true → (r = .finished ∨ endsPulse s.sub = true) →
      done r { s with calls := cs, lastRead := l, pwResult := r } = .next t → Proceeds i site dl s t) :
    Proceeds i site dl s t := by
  rcases pulseStep_next h with ⟨hsub, rfl, rfl⟩ | ⟨hsub, rfl⟩ | ⟨rfl, pos, hsub, h⟩ | ⟨rfl, pos, hsub, h⟩ |
    ⟨rfl, pos, hsub, h⟩
  · exact .toPlace (by simp [hsub, notAborting]) (by simp [hsub, subRank]) rfl rfl rfl rfl rfl
  · refine .toPlace (by simp [hsub, notAborting]) ?_ (by simp) (by simp) ?_ (by simp) (by simp)
    · cases w <;> simp [hsub, subRank, afterTrigger]
    · cases w <;> rfl
  · refine waitStep_proceeds h (.inl rfl) hsub ?_ fun cs l htest _ h => hdone _ cs l ?_ (.inr ?_) h
    · rintro cs ⟨⟩
      exact .toPlace (by simp [hsub, notAborting]) (by simp [hsub, subRank]) rfl rfl rfl rfl rfl
    · rw [hsub]; rfl
    · rw [htest]; rfl
  · refine waitStep_proceeds h (.inr rfl) hsub (fun cs h => hdone _ cs s.lastRead ?_ (.inl rfl) h)
      fun cs l htest _ h => hdone _ cs l ?_ (.inr ?_) h
    · rw [hsub]; rfl
    · rw [hsub]; rfl
    · rw [htest]; rfl
  · refine countStep_proceeds h hsub fun r cs hr h => hdone r cs s.lastRead ?_ hr h
    rw [hsub]; rfl

end

/-! ## The Pro engine -/

/-- Where a frame failure of SEND.PRO arises (rules R186, R187, R224). -/
def sendProSite (s : State) (f : FrameFailure) (_ : State) : Prop :=
  match f with
  | .noPeer => s.phase = .c ∧ s.cyc = 0 ∧ timedOut (.first .test) s
  | .desync => s.phase = .d ∧ s.sub = .start ∧
      (s.cyc.toNat = 56 ∧ s.wDataIn = true ∨
        1 ≤ s.cyc.toNat ∧ s.cyc.toNat ≤ 55 ∧ s.cfg.proStrict = true ∧ s.wDataIn = false)
  | .checksumFailure => False
  | .peerUnresponsive => timedOut (.first .test) s ∧ (s.phase = .c ∧ s.cyc ≠ 0 ∨ s.phase = .f)

/-- Where a frame failure of POLL.PRO arises (rule R186). -/
def pollProSite (s : State) (f : FrameFailure) (_ : State) : Prop :=
  match f with
  | .noPeer => s.phase = .a ∧ s.cyc = 0 ∧ timedOut (.first .test) s
  | .desync => False
  | .checksumFailure => False
  | .peerUnresponsive => timedOut (.first .test) s ∧ (s.phase = .a ∧ s.cyc ≠ 0 ∨ s.phase = .e)

section
variable {i : Instr} {site : FrameFailure → State → Prop} {dl : Word} {s t u : State}

/-- The end of a cycle leads to a later label (rules R181, R182). -/
theorem proNextCycle_proceeds {entry : Sub} (h : proNextCycle entry u = .next t) (hcur : u.cur = s.cur)
    (hf : u.failure = s.failure) (hph : s.phase = .f) (hcyc : u.cyc = s.cyc) (hs : notAborting s.sub = true)
    (hentry : notAborting entry = true) : Proceeds i site dl s t := by
  unfold proNextCycle at h
  split at h
  case isTrue hlt =>
    cases h
    refine .toPhase hs ?_ hentry hcur hf
    have hsucc := cyc_succ_toNat hlt
    rw [hcyc] at hlt hsucc
    simp only [goto_phase, goto_cyc, hph, phaseRank, hcyc]
    omega
  case isFalse =>
    cases h
    exact .toPhase hs (by simp [hph, phaseRank]) rfl hcur hf

/-- A timeout in the first wait of a cycle: its class depends on the cycle (rule R186). -/
theorem proFirstWait_proceeds (h : beginAbort (proFirstWait u) u = .next t) (hcur : u.cur = s.cur)
    (hcyc : u.cyc = s.cyc) (hs : notAborting s.sub = true) (hnoPeer : s.cyc = 0 → site .noPeer (fails .noPeer u))
    (hlate : s.cyc ≠ 0 → site .peerUnresponsive (fails .peerUnresponsive u)) : Proceeds i site dl s t := by
  by_cases hzero : s.cyc = 0
  · rw [proFirstWait, if_pos (hcyc.trans hzero)] at h
    exact .fails h hcur hs (hnoPeer hzero)
  · rw [proFirstWait, if_neg (hcyc ▸ hzero)] at h
    exact .fails h hcur hs (hlate hzero)

theorem sendProStep_proceeds {st : JoystickState} {wait : Word} (h : sendProStep st wait s = .next t) :
    Proceeds (.sendPro st wait) (sendProSite s) s.dl s t := by
  refine orAbort_proceeds h fun hs h => ?_
  split at h
  case h_1 hph hsub => -- IDLE
    cases h
    exact .toPhase hs (by simp [hph, phaseRank]) rfl rfl rfl
  case h_2 hph hsub => -- A
    unfold sendProA at h
    split at h
    · obtain ⟨v, -, h⟩ := orRangeFault_next h
      cases h
      exact .toPhase hs (by simp [hph, phaseRank]) rfl rfl rfl
    · cases h
      exact .toPhase hs (by simp [hph, phaseRank]) rfl rfl rfl
  case h_3 hph _ => -- B
    cases h
    exact .toPhase hs (by simp [hph, phaseRank]) rfl rfl rfl
  case h_4 pos hph hsub => -- C
    refine waitStep_proceeds h (.inl rfl) hsub ?_ fun cs l htest hexp h => ?_
    · rintro cs ⟨⟩
      exact .toPhase hs (by simp [hph, phaseRank]) rfl rfl rfl
    · exact proFirstWait_proceeds h rfl rfl hs (fun hzero => ⟨hph, hzero, htest, hexp⟩)
        fun hlate => ⟨⟨htest, hexp⟩, .inl ⟨hph, hlate⟩⟩
  case h_5 hph hsub => -- D
    unfold sendProD at h
    split at h
    case isTrue hattention => exact .fails h rfl hs ⟨hph, hsub, .inr hattention⟩
    split at h
    case isTrue hmarker => exact .fails h rfl hs ⟨hph, hsub, .inl hmarker⟩
    split at h
    · obtain ⟨b, -, h⟩ := orRangeFault_next h
      cases h
      exact .toPhase hs (by simp [hph, phaseRank]) rfl rfl rfl
    · cases h
      exact .toPhase hs (by simp [hph, phaseRank]) rfl rfl rfl
  case h_6 hph _ => -- E
    cases h
    exact .toPhase hs (by simp [hph, phaseRank]) rfl rfl rfl
  case h_7 pos hph hsub => -- F, the wait
    refine waitStep_proceeds h (.inl rfl) hsub (fun cs h => ?_) fun cs l htest hexp h => ?_
    · dsimp only at h
      split at h
      · cases h
        exact .toPlace hs (by simp [hsub, subRank]) hph.symm rfl rfl rfl rfl
      · exact proNextCycle_proceeds h rfl rfl hph rfl hs rfl
    · exact .fails h rfl hs ⟨⟨htest, hexp⟩, .inr hph⟩
  case h_8 hph _ => -- F, the frame deadline
    exact proNextCycle_proceeds h rfl rfl hph rfl hs rfl
  case h_9 => -- DONE
    obtain ⟨r, -, h⟩ := orRangeFault_next h
    cases h
    exact .returns rfl rfl rfl
  case h_10 => cases h

theorem pollProStep_proceeds {r : ProConfig} {wait : Word} (h : pollProStep r wait s = .next t) :
    Proceeds (.pollPro r wait) (pollProSite s) s.dl s t := by
  refine orAbort_proceeds h fun hs h => ?_
  split at h
  case h_1 hph hsub => -- IDLE
    cases h
    exact .toPhase hs (by simp [hph, phaseRank]) rfl rfl rfl
  case h_2 pos hph hsub => -- A
    refine waitStep_proceeds h (.inl rfl) hsub ?_ fun cs l htest hexp h => ?_
    · rintro cs ⟨⟩
      exact .toPhase hs (by simp [hph, phaseRank]) rfl rfl rfl
    · exact proFirstWait_proceeds h rfl rfl hs (fun hzero => ⟨hph, hzero, htest, hexp⟩)
        fun hlate => ⟨⟨htest, hexp⟩, .inl ⟨hph, hlate⟩⟩
  case h_3 hph _ => -- B
    unfold pollProB at h
    split at h
    · obtain ⟨b, -, h⟩ := orRangeFault_next h
      cases h
      exact .toPhase hs (by simp [hph, phaseRank]) rfl rfl rfl
    · cases h
      exact .toPhase hs (by simp [hph, phaseRank]) rfl rfl rfl
  case h_4 hph _ => -- C
    unfold pollProC at h
    split at h
    · obtain ⟨v, -, h⟩ := orRangeFault_next h
      cases h
      exact .toPhase hs (by simp [hph, phaseRank]) rfl rfl rfl
    · cases h
      exact .toPhase hs (by simp [hph, phaseRank]) rfl rfl rfl
  case h_5 hph _ => -- D
    cases h
    exact .toPhase hs (by simp [hph, phaseRank]) rfl rfl rfl
  case h_6 pos hph hsub => -- E
    refine waitStep_proceeds h (.inl rfl) hsub ?_ fun cs l htest hexp h => ?_
    · rintro cs ⟨⟩
      exact .toPhase hs (by simp [hph, phaseRank]) rfl rfl rfl
    · exact .fails h rfl hs ⟨⟨htest, hexp⟩, .inr hph⟩
  case h_7 hph hsub => -- F
    unfold pollProF at h
    split at h
    · cases h
      exact .toPlace hs (by simp [hsub, subRank]) hph.symm rfl rfl rfl rfl
    · exact proNextCycle_proceeds h rfl rfl hph rfl hs rfl
  case h_8 hph _ => -- F, the frame deadline
    exact proNextCycle_proceeds h rfl rfl hph rfl hs rfl
  case h_9 => -- DONE
    obtain ⟨r, -, h⟩ := orRangeFault_next h
    cases h
    exact .returns rfl rfl rfl
  case h_10 => cases h

end

/-! ## The Std engine -/

/-- Where a frame failure of POLL.STD arises, with the result of the pulse or the test in `t` (rules R209, R222 to
R225). -/
def pollStdSite (s : State) (f : FrameFailure) (t : State) : Prop :=
  match f with
  | .noPeer => s.phase = .p1 ∧ timedOut (.first .test) s ∨
      s.phase = .p2 ∧ endsPulse s.sub = true ∧ t.pwResult = .notStarted
  | .desync => False
  | .checksumFailure => s.phase = .p7 ∧ s.sub = .seq 1 ∧ t.ok = false
  | .peerUnresponsive => s.phase = .p5 ∧ timedOut (.first .test) s ∨
      s.phase = .p2 ∧ endsPulse s.sub = true ∧ (t.pwResult = .started ∨ t.pwResult = .tooMany) ∨
      (s.phase = .p3 ∨ s.phase = .p4) ∧ endsPulse s.sub = true ∧ t.pwResult ≠ .finished

/-- Where a frame failure of SEND.STD arises (rules R222, R223). -/
def sendStdSite (s : State) (f : FrameFailure) (_ : State) : Prop :=
  match f with
  | .noPeer => s.phase = .s1 ∧ timedOut (.first .test) s
  | .desync => False
  | .checksumFailure => False
  | .peerUnresponsive =>
      timedOut (.first .test) s ∧ (s.phase = .s3 ∨ s.phase = .s4 ∨ s.phase = .s5 ∨ s.phase = .s6) ∨
        timedOut (.second .test) s ∧ s.phase = .s5

section
variable {i : Instr} {site : FrameFailure → State → Prop} {dl : Word} {r : StdConfig} {st : JoystickState} {wait : Word}
variable {s t u : State}

theorem pollStdSample_proceeds (h : pollStdSample s = .next t) (hsub : s.sub = .start) :
    Proceeds (.pollStd r wait) site dl s t := by
  obtain ⟨b, -, h⟩ := orRangeFault_next h
  cases h
  refine .toPlace (by simp [hsub, notAborting]) ?_ rfl rfl ?_ rfl rfl
  · cases s.cfg.waiter <;> simp [hsub, pulseEntry, subRank]
  · cases s.cfg.waiter <;> rfl

/-- A `WaitForPulse` of the state bits that has another result than `Finished` (rule R223). -/
theorem pulseFails_proceeds {p : PulseResult} {cs : List PrimCall} {l : Option Word}
    (h : beginAbort .peerUnresponsive { s with calls := cs, lastRead := l, pwResult := p } = .next t)
    (hs : notAborting s.sub = true) (hph : s.phase = .p3 ∨ s.phase = .p4)
    (hp : p = .finished ∨ endsPulse s.sub = true) (hne : p ≠ .finished) :
    Proceeds i (pollStdSite s) dl s t :=
  .fails h rfl hs (.inr (.inr ⟨hph, hp.resolve_left hne, hne⟩))

theorem pollStdP6_proceeds {n : Nat} (h : pollStdP6 n s = .next t) (hph : s.phase = .p6)
    (hsub : s.sub = .seq n ∨ s.sub = .start ∧ n = 0) : Proceeds (.pollStd r wait) site dl s t := by
  have hs : notAborting s.sub = true := by rcases hsub with hsub | ⟨hsub, -⟩ <;> simp [hsub, notAborting]
  have hnext : ∀ {m}, n < m → m ≤ 13 → subRank (.pollStd r wait) (.seq m) < subRank (.pollStd r wait) s.sub := by
    intro m hn hm
    rcases hsub with hsub | ⟨hsub, rfl⟩
    all_goals
      simp only [hsub, subRank]
      omega
  unfold pollStdP6 at h
  split at h
  · cases h
    exact .toPlace hs (hnext (by decide) (by decide)) rfl rfl rfl rfl rfl
  · obtain ⟨v, -, h⟩ := orRangeFault_next h
    cases h
    exact .toPlace hs (hnext (by decide) (by decide)) rfl rfl rfl rfl rfl
  · cases h
    exact .toPlace hs (hnext (by decide) (by decide)) rfl rfl rfl rfl rfl
  · cases h
    exact .toPlace hs (hnext (by decide) (by decide)) rfl rfl rfl rfl rfl
  · split at h
    case isTrue hlt =>
      cases h
      have hsucc := cyc_succ_toNat (c := s.cyc) (by omega)
      refine .toPhase hs ?_ rfl rfl rfl
      simp only [goto_phase, goto_cyc, hph, phaseRank]
      omega
    case isFalse =>
      cases h
      exact .toPhase hs (by simp [hph, phaseRank]) rfl rfl rfl
  · cases h

/-- The end of POLL.STD, with the record or after a checksum failure (rules R209, R225). -/
theorem pollStdEnds_proceeds (rec : Option JoystickState) (hcalls : u.failure = s.failure)
    (hhist : u.history = s.history) (hsite : ∀ v, v.ok = false → site .checksumFailure v) : Proceeds i site dl s (pollStdEnds rec u) := by
  cases rec with
  | none =>
    exact ⟨.inr ⟨.checksumFailure, rfl, hsite _ rfl⟩, .inl ⟨rfl, _, congrArg (List.cons _) hhist⟩⟩
  | some rec => exact .returns rfl hcalls (congrArg (List.cons _) hhist)

theorem pollStdP7_proceeds {n : Nat} (h : pollStdP7 n s = .next t) (hph : s.phase = .p7)
    (hsub : s.sub = .seq n ∨ s.sub = .start ∧ n = 0) : Proceeds (.pollStd r wait) (pollStdSite s) dl s t := by
  unfold pollStdP7 at h
  split at h
  · cases h
    rcases hsub with hsub | ⟨hsub, -⟩ <;>
      exact .toPlace (by simp [hsub, notAborting]) (by simp [hsub, subRank]) rfl rfl rfl rfl rfl
  · obtain ⟨rec, -, h⟩ := orRangeFault_next h
    cases h
    have hsub' : s.sub = .seq 1 := by simpa using hsub
    exact pollStdEnds_proceeds rec rfl rfl fun v hv => ⟨hph, hsub', hv⟩
  · cases h

theorem pollStdStep_proceeds (h : pollStdStep r wait s = .next t) :
    Proceeds (.pollStd r wait) (pollStdSite s) s.dl s t := by
  refine orAbort_proceeds h fun hs h => ?_
  split at h
  case h_1 hph hsub => -- P0
    cases h
    exact .toPhase hs (by simp [hph, phaseRank]) rfl rfl rfl
  case h_2 pos hph hsub => -- P1
    refine waitStep_proceeds h (.inl rfl) hsub ?_ fun cs l htest hexp h => ?_
    · rintro cs ⟨⟩
      refine .toPhase hs (by simp [hph, phaseRank]) ?_ rfl rfl
      cases s.cfg.waiter <;> rfl
    · exact .fails h rfl hs (.inl ⟨hph, htest, hexp⟩)
  case h_3 hph _ => -- P2, the frame deadline
    cases h
    exact .toPhase hs (by simp [hph, phaseRank]) rfl rfl rfl
  case h_4 hph _ => -- P2
    refine pulseStep_proceeds h fun p cs l hplace hp h => ?_
    cases p with
    | finished =>
      cases h
      exact .toPlace hs (subRank_deadline_lt hplace) rfl rfl rfl rfl rfl
    | notStarted => exact .fails h rfl hs (.inr ⟨hph, hp.resolve_left nofun, rfl⟩)
    | started => exact .fails h rfl hs (.inr (.inl ⟨hph, hp.resolve_left nofun, .inl rfl⟩))
    | tooMany => exact .fails h rfl hs (.inr (.inl ⟨hph, hp.resolve_left nofun, .inr rfl⟩))
  case h_5 hph hsub => exact pollStdSample_proceeds h hsub
  case h_6 hph _ => -- P3
    refine pulseStep_proceeds h fun p cs l hplace hp h => ?_
    cases p with
    | finished =>
      simp only [pollStdP3Done] at h
      split at h
      case isTrue hlt =>
        cases h
        have hsucc := cyc_succ_toNat (c := s.cyc) (by omega)
        refine .toPhase hs ?_ rfl rfl rfl
        simp only [goto_phase, goto_cyc, hph, phaseRank]
        omega
      case isFalse =>
        cases h
        refine .toPhase hs ?_ rfl rfl rfl
        simp only [goto_phase, hph, phaseRank]
        omega
    | started | notStarted | tooMany => exact pulseFails_proceeds h hs (.inl hph) hp nofun
  case h_7 hph hsub => exact pollStdSample_proceeds h hsub
  case h_8 hph _ => -- P4
    refine pulseStep_proceeds h fun p cs l hplace hp h => ?_
    cases p with
    | finished =>
      cases h
      exact .toPhase hs (by simp [hph, phaseRank]) rfl rfl rfl
    | started | notStarted | tooMany => exact pulseFails_proceeds h hs (.inr hph) hp nofun
  case h_9 pos hph hsub => -- P5
    refine waitStep_proceeds h (.inl rfl) hsub ?_ fun cs l htest hexp h => ?_
    · rintro cs ⟨⟩
      exact .toPhase hs (by simp [hph, phaseRank]) rfl rfl rfl
    · exact .fails h rfl hs (.inl ⟨hph, htest, hexp⟩)
  case h_10 hph hsub => exact pollStdP6_proceeds h hph (.inr ⟨hsub, rfl⟩)
  case h_11 n hph hsub => exact pollStdP6_proceeds h hph (.inl hsub)
  case h_12 hph hsub => exact pollStdP7_proceeds h hph (.inr ⟨hsub, rfl⟩)
  case h_13 n hph hsub => exact pollStdP7_proceeds h hph (.inl hsub)
  case h_14 => cases h

theorem sendStdBit_proceeds (h : sendStdBit s = .next t) (hsub : s.sub = .seq 0) : Proceeds i site dl s t := by
  obtain ⟨v, -, h⟩ := orRangeFault_next h
  cases h
  exact .toPlace (by simp [hsub, notAborting]) (by simp [hsub, subRank]) rfl rfl rfl rfl rfl

/-- A pulse of SEND.STD: its next call, or what follows it (rule R206). -/
theorem pulseOut_proceeds {width : Word} {n : Nat} {after : State → Out} (h : pulseOut width n after s = .next t)
    (hsub : s.sub = .seq n)
    (hafter : ∀ cs, after { s with calls := cs, outCtl := true } = .next t → Proceeds i site dl s t) :
    Proceeds i site dl s t := by
  unfold pulseOut at h
  split at h
  · cases h
    exact .toPlace (by simp [hsub, notAborting]) (by simp [hsub, subRank]) rfl rfl rfl rfl rfl
  · cases h
    exact .toPlace (by simp [hsub, notAborting]) (by simp [hsub, subRank]) rfl rfl rfl rfl rfl
  · exact hafter _ h
  · cases h

/-- After a slot of S2 or S3 comes the prompt of a later bit, or of the config phase. -/
theorem sendStdNextBit_proceeds (h : sendStdNextBit u = .next t) (hs : notAborting s.sub = true)
    (hph : s.phase = .s2 ∨ s.phase = .s3) (hcyc : u.cyc = s.cyc) (hcur : u.cur = s.cur) (hf : u.failure = s.failure) :
    Proceeds i site dl s t := by
  unfold sendStdNextBit at h
  split at h
  case isTrue hlt =>
    cases h
    refine .toPhase hs ?_ rfl hcur hf
    have hsucc := cyc_succ_toNat (c := u.cyc) (by omega)
    rw [hcyc] at hlt hsucc
    rcases hph with hph | hph
    all_goals
      simp only [goto_phase, goto_cyc, hph, phaseRank, hcyc]
      omega
  case isFalse =>
    cases h
    refine .toPhase hs ?_ rfl hcur hf
    rcases hph with hph | hph
    all_goals
      simp only [goto_phase, hph, phaseRank]
      omega

theorem sendStdS5_proceeds (h : sendStdS5 s.sub s = .next t) (hph : s.phase = .s5) (hs : notAborting s.sub = true) :
    Proceeds (.sendStd st wait) (sendStdSite s) s.dl s t := by
  unfold sendStdS5 at h
  split at h
  case h_1 pos hsub =>
    refine waitStep_proceeds h (.inl rfl) hsub ?_ fun cs l htest hexp h => ?_
    · rintro cs ⟨⟩
      exact .toPlace hs (by simp [hsub, subRank]) rfl rfl rfl rfl rfl
    · exact .fails h rfl hs (.inl ⟨⟨htest, hexp⟩, .inr (.inr (.inl hph))⟩)
  case h_2 pos hsub =>
    refine waitStep_proceeds h (.inr rfl) hsub ?_ fun cs l htest hexp h => ?_
    · rintro cs ⟨⟩
      exact .toPlace hs (by simp [hsub, subRank]) rfl rfl rfl rfl rfl
    · exact .fails h rfl hs (.inr ⟨⟨htest, hexp⟩, hph⟩)
  case h_3 hsub =>
    obtain ⟨b, -, h⟩ := orRangeFault_next h
    split at h
    case isTrue hlt =>
      cases h
      have hsucc := cyc_succ_toNat (c := s.cyc) (by omega)
      refine .toPhase hs ?_ rfl rfl rfl
      simp only [goto_phase, goto_cyc, hph, phaseRank]
      omega
    case isFalse =>
      cases h
      refine .toPhase hs ?_ rfl rfl rfl
      simp only [goto_phase, hph, phaseRank]
      omega
  case h_4 => cases h

theorem sendStdStep_proceeds (h : sendStdStep st wait s = .next t) :
    Proceeds (.sendStd st wait) (sendStdSite s) s.dl s t := by
  refine orAbort_proceeds h fun hs h => ?_
  split at h
  case h_1 hph hsub => -- S0
    cases h
    exact .toPhase hs (by simp [hph, phaseRank]) rfl rfl rfl
  case h_2 pos hph hsub => -- S1
    refine waitStep_proceeds h (.inl rfl) hsub ?_ fun cs l htest hexp h => ?_
    · rintro cs ⟨⟩
      exact .toPlace hs (by simp [hsub, subRank]) rfl rfl rfl rfl rfl
    · exact .fails h rfl hs ⟨hph, htest, hexp⟩
  case h_3 hph _ => -- S1, the frame deadline
    cases h
    exact .toPhase hs (by simp [hph, phaseRank]) rfl rfl rfl
  case h_4 _ hsub => exact sendStdBit_proceeds h hsub
  case h_5 hph hsub => -- S2, the pulse
    exact pulseOut_proceeds h hsub fun cs h => sendStdNextBit_proceeds h hs (.inl hph) rfl rfl rfl
  case h_6 pos hph hsub => -- S3, the prompt
    refine waitStep_proceeds h (.inl rfl) hsub ?_ fun cs l htest hexp h => ?_
    · rintro cs ⟨⟩
      exact .toPlace hs (by simp [hsub, subRank]) rfl rfl rfl rfl rfl
    · exact .fails h rfl hs (.inl ⟨⟨htest, hexp⟩, .inl hph⟩)
  case h_7 _ hsub => exact sendStdBit_proceeds h hsub
  case h_8 hph hsub => -- S3, the pulse
    exact pulseOut_proceeds h hsub fun cs h => sendStdNextBit_proceeds h hs (.inr hph) rfl rfl rfl
  case h_9 pos hph hsub => -- S4, the prompt
    refine waitStep_proceeds h (.inl rfl) hsub ?_ fun cs l htest hexp h => ?_
    · rintro cs ⟨⟩
      exact .toPlace hs (by simp [hsub, subRank]) rfl rfl rfl rfl rfl
    · exact .fails h rfl hs (.inl ⟨⟨htest, hexp⟩, .inr (.inl hph)⟩)
  case h_10 _ hsub => -- S4, the data line back at idle
    cases h
    exact .toPlace hs (by simp [hsub, subRank]) rfl rfl rfl rfl rfl
  case h_11 hph hsub => -- S4, the long pulse
    refine pulseOut_proceeds h hsub ?_
    rintro cs ⟨⟩
    exact .toPhase hs (by simp [hph, phaseRank]) rfl rfl rfl
  case h_12 hph => exact sendStdS5_proceeds h hph hs
  case h_13 pos hph hsub => -- S6
    refine waitStep_proceeds h (.inl rfl) hsub ?_ fun cs l htest hexp h => ?_
    · rintro cs ⟨⟩
      exact .toPhase hs (by simp [hph, phaseRank]) rfl rfl rfl
    · exact .fails h rfl hs (.inl ⟨⟨htest, hexp⟩, .inr (.inr (.inr hph))⟩)
  case h_14 => -- S7
    obtain ⟨r, -, h⟩ := orRangeFault_next h
    cases h
    exact .returns rfl rfl rfl
  case h_15 => cases h

end

/-! ## Setup, the waits of HOST's own, PEEK.PRO -/

section
variable {i : Instr} {site : FrameFailure → State → Prop} {s t u : State}

theorem setupStep_proceeds {v : Variant} {level irq : Bool} {dl : Word} (hi : isSetup i = true)
    (h : setupStep v level irq s = .next t) : Proceeds i site dl s t := by
  have hstart : subRank i .start = 22 := by
    cases i with
    | sendStd => cases hi
    | _ => rfl
  unfold setupStep at h
  split at h
  case h_6 hsub =>
    split at h <;> cases h
    · exact .toPlace (by simp [hsub, notAborting]) (by simp [hsub, subRank]) rfl rfl rfl rfl rfl
    · exact .returns rfl rfl rfl
  case h_7 hsub =>
    split at h
    · cases h
    split at h <;> cases h
    · exact .returns rfl rfl rfl
    · exact .toPlace (by simp [hsub, notAborting]) (by simp [hsub, subRank]) rfl rfl rfl rfl rfl
  case h_8 =>
    split at h <;> cases h
    exact .returns rfl rfl rfl
  case h_9 => cases h
  case h_1 hsub =>
    cases h
    exact .toPlace (by simp [hsub, notAborting]) (by rw [hsub, hstart]; simp [subRank]) rfl rfl rfl rfl rfl
  all_goals
    rename_i hsub
    cases h
    exact .toPlace (by simp [hsub, notAborting]) (by simp [hsub, subRank]) rfl rfl rfl rfl rfl

theorem waitPinStep_proceeds {p : InPin} {v : Bool} {dl : Word} (h : waitPinStep p v dl s = .next t) :
    Proceeds (.waitPin p v dl) site dl s t := by
  unfold waitPinStep at h
  split at h
  case h_1 hsub => -- the first read
    rcases waitStep_next h with ⟨-, -, h⟩ | ⟨-, -, rfl⟩ | ⟨hpos, -⟩ | ⟨hpos, -⟩ | ⟨hpos, -⟩
    · cases h
      exact .returns rfl rfl rfl
    · exact .toPlace (by simp [hsub, notAborting]) (by simp [hsub, subRank]) rfl rfl rfl rfl rfl
    all_goals cases hpos
  case h_2 pos hsub =>
    refine waitStep_proceeds h (.inl rfl) hsub ?_ ?_
    · rintro cs ⟨⟩
      exact .returns rfl rfl rfl
    · rintro cs l - - ⟨⟩
      exact .returns rfl rfl rfl
  case h_3 => cases h

theorem waitPulseStep_proceeds {w : Waiter} {dl : Word} {tr : Trigger} (h : waitPulseStep w dl tr s = .next t) :
    Proceeds (waitPulse w dl tr) site dl s t := by
  unfold waitPulseStep at h
  split at h
  case h_1 hsub => -- the snapshot, or the trigger
    have hs : notAborting s.sub = true := by simp [hsub, notAborting]
    cases w with
    | polling =>
      rw [pulseStep_trigger rfl] at h
      cases h
      exact .toPlace hs (by simp [hsub, waitPulse, afterTrigger, subRank]) (by simp) (by simp) rfl (by simp) (by simp)
    | interruptCounted =>
      rw [pulseStep_snapshot rfl] at h
      cases h
      exact .toPlace hs (by simp [hsub, waitPulse, subRank]) rfl rfl rfl rfl rfl
  case h_2 =>
    refine pulseStep_proceeds h ?_
    rintro p cs l - - ⟨⟩
    exact .returns rfl rfl rfl

theorem peekProStep_proceeds {dl : Word} (h : peekProStep s = .next t) : Proceeds .peekPro site dl s t := by
  unfold peekProStep at h
  split at h
  case h_1 hsub =>
    cases h
    exact .toPlace (by simp [hsub, notAborting]) (by simp [hsub, subRank]) rfl rfl rfl rfl rfl
  case h_2 =>
    cases h
    exact .returns rfl rfl rfl
  case h_3 => cases h

end

end Sys2Proof.Machine
end

section
/-! Where each class of frame failure arises (O41): the operations of several steps, each by its own step. -/

set_option Elab.async false

namespace Sys2Proof.Machine
open Sys2Proof.Claims

/-! ## The operations of several steps -/

/-- The operations that run over several steps of ENGINE. -/
def hasSteps (i : Instr) : Bool :=
  match i with
  | .waitPin _ _ _ => true
  | .waitPulsePoll _ _ => true
  | .waitPulseIrq _ _ => true
  | .peekPro => true
  | i => isSetup i || isDataPlane i

/-- What such an operation does at each of its places. -/
def ownStep (i : Instr) (s : State) : Out :=
  match i with
  | .waitPin p v dl => waitPinStep p v dl s
  | .waitPulsePoll dl tr => waitPulseStep .polling dl tr s
  | .waitPulseIrq dl tr => waitPulseStep .interruptCounted dl tr s
  | .setupProJc => setupStep .pro false false s
  | .setupProTc => setupStep .pro false false s
  | .pollPro r wait => pollProStep r wait s
  | .sendPro st wait => sendProStep st wait s
  | .peekPro => peekProStep s
  | .setupStdJc => setupStep .std false (decide (s.cfg.waiter = .interruptCounted)) s
  | .setupStdTc => setupStep .std true false s
  | .pollStd r wait => pollStdStep r wait s
  | .sendStd st wait => sendStdStep st wait s
  | _ => .next s

/-- The deadline the operation waits on. -/
def deadlineOf (i : Instr) (s : State) : Word :=
  match i with
  | .waitPin _ _ dl => dl
  | .waitPulsePoll dl _ => dl
  | .waitPulseIrq dl _ => dl
  | _ => s.dl

/-- Where a frame failure of the operation arises (rules R186, R222 to R225). -/
def failureSite (i : Instr) (s : State) (f : FrameFailure) (t : State) : Prop :=
  match i with
  | .pollPro _ _ => pollProSite s f t
  | .sendPro _ _ => sendProSite s f t
  | .pollStd _ _ => pollStdSite s f t
  | .sendStd _ _ => sendStdSite s f t
  | _ => False

section
variable {i : Instr} {s t : State} {f : FrameFailure}

theorem exec_eq_running (hi : hasSteps i = true) (s : State) : ∃ r, exec i s = running r i s (ownStep i) := by
  cases i with
  | waitPin => exact ⟨none, rfl⟩
  | waitPulsePoll | waitPulseIrq | peekPro => exact ⟨_, rfl⟩
  | setupProJc | setupProTc | setupStdJc | setupStdTc => exact ⟨_, rfl⟩
  | pollPro | sendPro | pollStd | sendStd => exact ⟨_, rfl⟩
  | _ => cases hi

theorem ownStep_proceeds (hi : hasSteps i = true) (h : ownStep i s = .next t) :
    Proceeds i (failureSite i s) (deadlineOf i s) s t := by
  cases i with
  | waitPin => exact waitPinStep_proceeds h
  | waitPulsePoll => exact waitPulseStep_proceeds (w := .polling) h
  | waitPulseIrq => exact waitPulseStep_proceeds (w := .interruptCounted) h
  | peekPro => exact peekProStep_proceeds h
  | setupProJc | setupProTc | setupStdJc | setupStdTc => exact setupStep_proceeds rfl h
  | pollPro => exact pollProStep_proceeds h
  | sendPro => exact sendProStep_proceeds h
  | pollStd => exact pollStdStep_proceeds h
  | sendStd => exact sendStdStep_proceeds h
  | _ => cases hi

/-! ## Every operation -/

/-- No frame failure arises at the start of an operation. -/
theorem not_failureSite_launch (h : failureSite i (launch i s) f t) : False := by
  cases i with
  | pollPro | sendPro | pollStd | sendStd =>
    cases f <;> simp [failureSite, pollProSite, sendProSite, pollStdSite, sendStdSite] at h
  | _ => exact h

/-- An operation of one step has no frame failure. -/
theorem Ending.apply_failure (e : Ending) (s : State) : (e.apply s).failure = s.failure := by
  cases e with
  | decodedStd r => cases r <;> rfl
  | _ => rfl

/-- What a step does to the failure it shows: nothing, or it begins an operation, or a running operation fails at one of
its sites. -/
theorem exec_failure (h : exec i s = .next t) :
    t.failure = s.failure ∨ t.failure = none ∨
      (s.cur = some i ∧ ∃ f, t.failure = some f ∧ failureSite i s f t) := by
  by_cases hi : hasSteps i = true
  · obtain ⟨r, heq⟩ := exec_eq_running hi s
    rw [heq] at h
    rcases running_next h with ⟨-, w, -, rfl⟩ | ⟨-, -, h⟩ | ⟨hcur, -, h⟩ | ⟨-, -, rfl⟩ | ⟨-, rfl⟩
    · exact .inl rfl
    · rcases (ownStep_proceeds hi h).failure with hsame | ⟨f, -, hsite⟩
      · exact .inr (.inl hsame)
      · exact (not_failureSite_launch hsite).elim
    · exact (ownStep_proceeds hi h).failure.imp_right fun hfails => .inr ⟨hcur, hfails⟩
    · exact .inl rfl
    · exact .inl rfl
  by_cases hone : isOneStep i = true
  · rcases exec_oneStep_next hone h with ⟨w, rfl⟩ | ⟨-, e, -, rfl⟩
    · exact .inl rfl
    · exact .inr (.inl (e.apply_failure _))
  cases i with
  | edgeCb =>
    cases h
    left
    split <;> rfl
  | peekStd =>
    replace h : execPeekStd s = .next t := h
    rcases oneStep_next h with ⟨-, rfl⟩ | ⟨-, w, -, rfl⟩ | ⟨-, -, h⟩
    · exact .inl rfl
    · exact .inl rfl
    · cases h
      exact .inr (.inl rfl)
  | _ => simp [hasSteps, isOneStep, isSetup, isDataPlane] at hi hone

end

/-- Settles O41: a failure that was not there arises at a site of the running operation; the sites of each class are those
listed. -/
theorem failureClassesArise : Obligations.FailureClassesArise := by
  intro i s t h hnew hsome
  rcases exec_failure h with hsame | hnone | ⟨hcur, f, hf, hsite⟩
  · exact absurd hsame hnew
  · exact absurd hnone hsome
  have hclass : ∀ {g}, t.failure = some g → failureSite i s g t := fun hg => by
    rw [hf] at hg
    exact Option.some.inj hg ▸ hsite
  refine ⟨hcur, fun hg => ?noPeer, fun hg => ?desync, fun hg => ?checksumFailure, fun hg => ?peerUnresponsive⟩
  all_goals replace hsite := hclass hg
  case noPeer =>
    cases i with
    | sendPro st w => exact .inl ⟨⟨st, w, rfl⟩, hsite⟩
    | pollPro r w => exact .inr (.inl ⟨⟨r, w, rfl⟩, hsite⟩)
    | sendStd st w => exact .inr (.inr (.inl ⟨⟨st, w, rfl⟩, hsite⟩))
    | pollStd r w => exact .inr (.inr (.inr ⟨⟨r, w, rfl⟩, hsite⟩))
    | _ => cases hsite
  case desync =>
    cases i with
    | sendPro st w => exact ⟨⟨st, w, rfl⟩, hsite⟩
    | _ => cases hsite
  case checksumFailure =>
    cases i with
    | pollStd r w => exact ⟨⟨r, w, rfl⟩, hsite⟩
    | _ => cases hsite
  case peerUnresponsive =>
    cases i with
    | sendPro st w => exact .inl ⟨⟨st, w, rfl⟩, hsite⟩
    | pollPro r w => exact .inr (.inl ⟨⟨r, w, rfl⟩, hsite⟩)
    | sendStd st w => exact .inr (.inr (.inl ⟨⟨st, w, rfl⟩, hsite⟩))
    | pollStd r w => exact .inr (.inr (.inr ⟨⟨r, w, rfl⟩, hsite⟩))
    | _ => cases hsite

end Sys2Proof.Machine
end

section
/-! Every operation returns (O56). Along a schedule the measure of a running operation never grows: how far it still has
to go, how much time its deadline has left, how many calls come before the next deadline test, how long a delay still
lasts. While the deadline runs CLOCK lowers it; else CLOCK ends a delay, and then ENGINE makes the next call. -/

set_option Elab.async false

namespace Sys2Proof.Machine
open Sys2Proof.Claims

/-! ## The time a deadline has left -/

/-- How long the deadline has left since ENGINE last found it running; 2^31, more than any, if ENGINE's last read of the
clock found it expired or there was none. -/
def timeLeft (dl : Word) (s : State) : Nat :=
  match s.lastRead with
  | none => 2 ^ 31
  | some a => if expiredAt dl a then 2 ^ 31 else (dl - a).toNat - (s.now - a).toNat

/-- ENGINE found the deadline running, and it has not expired since. -/
def deadlineRuns (dl : Word) (s : State) : Bool := decide (0 < timeLeft dl s) && decide (timeLeft dl s < 2 ^ 31)

section
variable {dl us a : Word} {s t : State}

theorem expiredAt_eq_false_iff : expiredAt dl a = false ↔ 0 < (dl - a).toNat ∧ (dl - a).toNat < 2 ^ 31 := by
  rw [← Bool.not_eq_true, expiredAt_iff]
  omega

/-- A deadline was found running, and has what it had then but for the time since; or it has more than any. -/
theorem timeLeft_cases (dl : Word) (s : State) :
    (∃ a, s.lastRead = some a ∧ expiredAt dl a = false ∧ timeLeft dl s = (dl - a).toNat - (s.now - a).toNat) ∨
      ((∀ a, s.lastRead = some a → expiredAt dl a = true) ∧ timeLeft dl s = 2 ^ 31) := by
  unfold timeLeft
  split
  case h_1 hnone => exact .inr ⟨by simp [hnone], rfl⟩
  case h_2 a ha =>
    cases hexp : expiredAt dl a with
    | false => exact .inl ⟨a, ha, hexp, by simp⟩
    | true => exact .inr ⟨fun b hb => by simp_all, by simp⟩

theorem timeLeft_of_running (ha : s.lastRead = some a) (hexp : expiredAt dl a = false) :
    timeLeft dl s = (dl - a).toNat - (s.now - a).toNat := by simp [timeLeft, ha, hexp]

theorem timeLeft_of_expired (h : ∀ a, s.lastRead = some a → expiredAt dl a = true) : timeLeft dl s = 2 ^ 31 := by
  unfold timeLeft
  split
  case h_1 => rfl
  case h_2 a ha => rw [if_pos (h a ha)]

theorem timeLeft_congr (hread : t.lastRead = s.lastRead) (hnow : t.now = s.now) : timeLeft dl t = timeLeft dl s := by
  simp only [timeLeft, hread, hnow]

theorem deadlineRuns_iff : deadlineRuns dl s = true ↔ 0 < timeLeft dl s ∧ timeLeft dl s < 2 ^ 31 := by
  simp [deadlineRuns]

/-- CLOCK never gives a deadline more time, and takes some from one that runs (rule R54). -/
theorem timeLeft_clockAdvances (us : Word) (hck : clockOk s = true) :
    timeLeft dl (clockAdvances us s) ≤ timeLeft dl s ∧
      (us ≠ 0 → deadlineRuns dl s = true → timeLeft dl (clockAdvances us s) < timeLeft dl s) := by
  rw [deadlineRuns_iff]
  rcases timeLeft_cases dl s with ⟨a, ha, hexp, hleft⟩ | ⟨hexp, hleft⟩
  · have hruns := expiredAt_eq_false_iff.mp hexp
    have hlt := (clockOk_iff s).mp hck a ha
    have hleft' := timeLeft_of_running (s := clockAdvances us s) ha hexp
    rw [clockAdvances_since ha hlt] at hleft'
    refine ⟨by omega, fun hus _ => ?_⟩
    have hpos : 0 < us.toNat := by bv_omega
    omega
  · have hleft' := timeLeft_of_expired (s := clockAdvances us s) hexp
    exact ⟨by omega, fun _ => by omega⟩

/-- A test that finds the deadline running leaves it the time it had, or had it found expired before (rule R161). -/
theorem timeLeft_of_test (hck : clockOk s = true) (hexp : expiredAt dl s.now = false) (hread : t.lastRead = some s.now)
    (hnow : t.now = s.now) :
    timeLeft dl t < timeLeft dl s ∨ (deadlineRuns dl s = true ∧ timeLeft dl t = timeLeft dl s) := by
  have hruns := expiredAt_eq_false_iff.mp hexp
  have ht : timeLeft dl t = (dl - s.now).toNat := by simp [timeLeft_of_running hread hexp, hnow]
  rw [deadlineRuns_iff, ht]
  rcases timeLeft_cases dl s with ⟨a, ha, hexp', hleft⟩ | ⟨-, hleft⟩
  · have hruns' := expiredAt_eq_false_iff.mp hexp'
    have hlt := (clockOk_iff s).mp hck a ha
    right
    bv_omega
  · exact .inl (hleft ▸ hruns.2)

end

/-! ## The measure -/

/-- What brings a running operation to its end: how far it still has to go, how much time its deadline has left, and
while that does not run, the calls up to the next deadline test and the rest of a delay. -/
def progressMeasure (i : Instr) (s : State) : Nat ×ₗ Nat ×ₗ Nat ×ₗ Nat :=
  toLex (rank i s, toLex (timeLeft (deadlineOf i s) s,
    if deadlineRuns (deadlineOf i s) s then toLex (0, 0) else toLex (testDistance s.sub, s.delayLeft)))

/-- The events that lower the measure: CLOCK's while the deadline runs or a delay lasts, else ENGINE's next call. -/
def isDue (i : Instr) (s : State) (e : Event) : Prop :=
  if deadlineRuns (deadlineOf i s) s = true ∨ 0 < s.delayLeft then ∃ us, e = .clock us ∧ us ≠ 0 else e = .engine

section
variable {i : Instr} {e : Event} {us : Word} {s t : State}

theorem deadlineOf_congr (h : t.dl = s.dl) : deadlineOf i t = deadlineOf i s := by
  cases i with
  | waitPin | waitPulsePoll | waitPulseIrq => rfl
  | _ => exact h

theorem progressMeasure_lt_of_rank (h : rank i t < rank i s) : progressMeasure i t < progressMeasure i s :=
  Prod.Lex.toLex_lt_toLex.mpr (.inl h)

theorem progressMeasure_lt_of_time (hrank : rank i t = rank i s)
    (h : timeLeft (deadlineOf i t) t < timeLeft (deadlineOf i s) s) : progressMeasure i t < progressMeasure i s :=
  Prod.Lex.toLex_lt_toLex.mpr (.inr ⟨hrank, Prod.Lex.toLex_lt_toLex.mpr (.inl h)⟩)

theorem deadlineRuns_congr (h : timeLeft (deadlineOf i t) t = timeLeft (deadlineOf i s) s) :
    deadlineRuns (deadlineOf i t) t = deadlineRuns (deadlineOf i s) s := by
  rw [deadlineRuns, deadlineRuns, h]

/-- While the deadline runs, only the time it has left counts. -/
theorem progressMeasure_eq_of_runs (hrank : rank i t = rank i s)
    (h : timeLeft (deadlineOf i t) t = timeLeft (deadlineOf i s) s) (hruns : deadlineRuns (deadlineOf i s) s = true) :
    progressMeasure i t = progressMeasure i s := by
  simp [progressMeasure, deadlineRuns_congr h, hrank, h, hruns]

/-- While it does not, the calls up to the next test count, and then the delay. -/
theorem progressMeasure_lt_of_waits (hrank : rank i t = rank i s)
    (h : timeLeft (deadlineOf i t) t = timeLeft (deadlineOf i s) s) (hruns : deadlineRuns (deadlineOf i s) s = false)
    (hlast : testDistance t.sub < testDistance s.sub ∨
      testDistance t.sub = testDistance s.sub ∧ t.delayLeft < s.delayLeft) :
    progressMeasure i t < progressMeasure i s := by
  refine Prod.Lex.toLex_lt_toLex.mpr (.inr ⟨hrank, Prod.Lex.toLex_lt_toLex.mpr (.inr ⟨h, ?_⟩)⟩)
  simp only [deadlineRuns_congr h, hruns]
  exact Prod.Lex.toLex_lt_toLex.mpr hlast

theorem progressMeasure_eq_iff : progressMeasure i t = progressMeasure i s ↔
    rank i t = rank i s ∧ timeLeft (deadlineOf i t) t = timeLeft (deadlineOf i s) s ∧
      (deadlineRuns (deadlineOf i s) s = true ∨
        testDistance t.sub = testDistance s.sub ∧ t.delayLeft = s.delayLeft) := by
  constructor
  · intro h
    obtain ⟨hrank, h⟩ := Prod.ext_iff.mp (toLex.injective h)
    obtain ⟨htime, h⟩ := Prod.ext_iff.mp (toLex.injective h)
    refine ⟨hrank, htime, ?_⟩
    cases hruns : deadlineRuns (deadlineOf i s) s with
    | true => exact .inl rfl
    | false =>
      simp only [deadlineRuns_congr htime, hruns] at h
      exact .inr (Prod.ext_iff.mp (toLex.injective h))
  · rintro ⟨hrank, htime, hruns | ⟨htest, hdelay⟩⟩
    · exact progressMeasure_eq_of_runs hrank htime hruns
    · simp only [progressMeasure, deadlineRuns_congr htime, hrank, htime, htest, hdelay]

/-- Which event is due depends on the measure alone. -/
theorem isDue_congr (h : progressMeasure i t = progressMeasure i s) : isDue i t e ↔ isDue i s e := by
  obtain ⟨-, htime, hlast⟩ := progressMeasure_eq_iff.mp h
  unfold isDue
  rw [deadlineRuns_congr htime]
  rcases hlast with hruns | ⟨-, hdelay⟩
  · simp only [hruns, true_or, if_true]
  · rw [hdelay]

/-! ## A turn -/

/-- The event lowers the measure, or it was not due and leaves the measure as it is. -/
def Lowers (i : Instr) (e : Event) (s t : State) : Prop :=
  progressMeasure i t < progressMeasure i s ∨ (¬isDue i s e ∧ progressMeasure i t = progressMeasure i s)

/-- CLOCK takes time from a deadline that runs, else from a delay. -/
theorem clockAdvances_lowers (us : Word) (hck : clockOk s = true) :
    Lowers i (.clock us) s (clockAdvances us s) := by
  have hrank : rank i (clockAdvances us s) = rank i s := rfl
  have hdl : deadlineOf i (clockAdvances us s) = deadlineOf i s := deadlineOf_congr rfl
  obtain ⟨hle, hlt⟩ := timeLeft_clockAdvances (dl := deadlineOf i s) us hck
  rcases hle.lt_or_eq with hless | hsame
  · exact .inl (progressMeasure_lt_of_time hrank (hdl ▸ hless))
  have hsame' : timeLeft (deadlineOf i (clockAdvances us s)) (clockAdvances us s) = timeLeft (deadlineOf i s) s :=
    hdl ▸ hsame
  cases hruns : deadlineRuns (deadlineOf i s) s with
  | true =>
    refine .inr ⟨fun hdue => ?_, progressMeasure_eq_of_runs hrank hsame' hruns⟩
    have hus : us ≠ 0 := by simpa [isDue, hruns] using hdue
    exact absurd hsame (hlt hus hruns).ne
  | false =>
    by_cases hdelay : (clockAdvances us s).delayLeft = s.delayLeft
    · refine .inr ⟨fun hdue => ?_, progressMeasure_eq_iff.mpr ⟨hrank, hsame', .inr ⟨rfl, hdelay⟩⟩⟩
      rw [clockAdvances_delayLeft] at hdelay
      have hzero : s.delayLeft = 0 ∨ us.toNat = 0 := by omega
      rcases hzero with hzero | hzero
      · simp [isDue, hruns, hzero] at hdue
      · have hus : us = 0 := by bv_omega
        simp [isDue, hruns, hus] at hdue
    · refine .inl (progressMeasure_lt_of_waits hrank hsame' hruns (.inr ⟨rfl, ?_⟩))
      rw [clockAdvances_delayLeft] at hdelay ⊢
      omega

/-- A step inside a wait brings the deadline test nearer, or shows the deadline running (rules R162, R174). -/
theorem InWait.lowers (h : InWait i (deadlineOf i s) s t) (hck : clockOk s = true) (hnow : t.now = s.now) :
    Lowers i .engine s t := by
  have hdl : deadlineOf i t = deadlineOf i s := deadlineOf_congr h.dl_eq
  have hnot : deadlineRuns (deadlineOf i s) s = true → ¬isDue i s .engine := fun hruns => by simp [isDue, hruns]
  rcases h.test with ⟨hnearer, hread⟩ | ⟨hexp, hread⟩
  · have hsame : timeLeft (deadlineOf i t) t = timeLeft (deadlineOf i s) s := hdl ▸ timeLeft_congr hread hnow
    cases hruns : deadlineRuns (deadlineOf i s) s with
    | true => exact .inr ⟨hnot hruns, progressMeasure_eq_of_runs h.rank_eq hsame hruns⟩
    | false => exact .inl (progressMeasure_lt_of_waits h.rank_eq hsame hruns (.inl hnearer))
  · rcases timeLeft_of_test hck hexp hread hnow with hless | ⟨hruns, hsame⟩
    · exact .inl (progressMeasure_lt_of_time h.rank_eq (hdl ▸ hless))
    · exact .inr ⟨hnot hruns, progressMeasure_eq_of_runs h.rank_eq (hdl ▸ hsame) hruns⟩

/-- The operation came to its end: it returned to HOST, or HOST constructed anew (rule R191 (b)). -/
def Ended (e : Event) (s t : State) : Prop :=
  t.cur = none ∧ ((∃ a, t.history = a :: s.history) ∨ ∃ c, e = .construct c ∧ c.wf = true)

/-- The operation goes on, nearer to its end if the event was due. -/
def GoesOn (i : Instr) (e : Event) (s t : State) : Prop :=
  t.cur = some i ∧ t.history = s.history ∧ Lowers i e s t

/-- What the events that are neither ENGINE's nor CLOCK's leave as it is. -/
def StandsAside (s t : State) : Prop :=
  t.cur = s.cur ∧ t.history = s.history ∧ t.delayLeft = s.delayLeft ∧ ∀ i, progressMeasure i t = progressMeasure i s

/-- While an operation runs: ENGINE moves it, CLOCK advances, HOST constructs anew, or the event stands aside. -/
theorem turn_cases_of_running (e : Event) (s : State) (hcur : s.cur ≠ none) :
    e = .engine ∨ (∃ us, e = .clock us) ∨ (∃ c, e = .construct c ∧ c.wf = true ∧ turn e s = .next (newInstance c s)) ∨
      (e ≠ .engine ∧ (∀ us, e ≠ .clock us) ∧ ∃ t, turn e s = .next t ∧ StandsAside s t) := by
  obtain ⟨-, -, -, -, hbusy, -⟩ := callsAreTurnedAway
  cases e with
  | engine => exact .inl rfl
  | clock us => exact .inr (.inl ⟨us, rfl⟩)
  | edgecb =>
    refine .inr (.inr (.inr ⟨nofun, nofun, _, execEdgeCb_next s, ?_⟩))
    split <;> exact ⟨rfl, rfl, rfl, fun _ => rfl⟩
  | peerCtl v => exact .inr (.inr (.inr ⟨nofun, nofun, _, rfl, rfl, rfl, rfl, fun _ => rfl⟩))
  | peerData v => exact .inr (.inr (.inr ⟨nofun, nofun, _, rfl, rfl, rfl, rfl, fun _ => rfl⟩))
  | hostArgs a => exact .inr (.inr (.inr ⟨nofun, nofun, _, rfl, rfl, rfl, rfl, fun _ => rfl⟩))
  | issue code =>
    obtain ⟨why, hcall⟩ := hbusy _ s hcur
    exact .inr (.inr (.inr ⟨nofun, nofun, _, hcall, rfl, rfl, rfl, fun _ => rfl⟩))
  | wire n b =>
    obtain ⟨why, hcall⟩ := hbusy _ s hcur
    exact .inr (.inr (.inr ⟨nofun, nofun, _, hcall, rfl, rfl, rfl, fun _ => rfl⟩))
  | construct c =>
    rcases hostConstructs_cases c s with ⟨why, heq⟩ | ⟨hwf, heq⟩
    · exact .inr (.inr (.inr ⟨nofun, nofun, _, congrArg Host.Outcome.next heq, rfl, rfl, rfl, fun _ => rfl⟩))
    · exact .inr (.inr (.inl ⟨c, rfl, hwf, congrArg Host.Outcome.next heq⟩))

theorem not_isDue (hengine : e ≠ .engine) (hclock : ∀ us, e ≠ .clock us) : ¬isDue i s e := by
  unfold isDue
  split
  · rintro ⟨us, rfl, -⟩
    exact hclock us rfl
  · exact hengine

/-- An operation that runs is one of several steps. -/
theorem hasSteps_of_placeOk (hp : placeOk s = true) (hcur : s.cur = some i) : hasSteps i = true := by
  cases i with
  | waitPin | waitPulsePoll | waitPulseIrq | peekPro => rfl
  | setupProJc | setupProTc | setupStdJc | setupStdTc => rfl
  | pollPro | sendPro | pollStd | sendStd => rfl
  | _ => simp [placeOk, hcur] at hp

theorem takesHostBuffer_of_hasSteps (hi : hasSteps i = true) : takesHostBuffer i = false := by
  cases i with
  | waitPin | waitPulsePoll | waitPulseIrq | peekPro => rfl
  | setupProJc | setupProTc | setupStdJc | setupStdTc => rfl
  | pollPro | sendPro | pollStd | sendStd => rfl
  | _ => cases hi

/-- ENGINE's turn makes the operation's next step, or a delay holds it (rules R55, R63). -/
theorem engineTurn_goesOn (hs : s.inv = true) (hcur : s.cur = some i) :
    ∃ t, turn .engine s = .next t ∧ (Ended .engine s t ∨ GoesOn i .engine s t) := by
  obtain ⟨-, -, hp, -, hck⟩ := (State.inv_iff s).mp hs
  have hi := hasSteps_of_placeOk hp hcur
  obtain ⟨t, ht⟩ := engineNeverLeavesRange i s hs (takesHostBuffer_of_hasSteps hi)
  refine ⟨t, (engineTurn_of_cur hcur).trans ht, ?_⟩
  have w := exec_wrote ht
  obtain ⟨r, heq⟩ := exec_eq_running hi s
  by_cases hdelay : s.delayLeft = 0
  · rw [heq, running_on hcur hdelay] at ht
    rcases (ownStep_proceeds hi ht).progress with ⟨hend, hist⟩ | ⟨hstays, hgo⟩
    · exact .inl ⟨hend, .inl hist⟩
    have hon : t.cur = some i := hstays.trans hcur
    have hist : t.history = s.history := w.history.resolve_right fun ⟨_, _, _, hnone⟩ => by simp [hon] at hnone
    refine .inr ⟨hon, hist, ?_⟩
    rcases hgo with hrank | hwait
    · exact .inl (progressMeasure_lt_of_rank hrank)
    · exact hwait.lowers hck w.now
  · have hpos : 0 < s.delayLeft := Nat.pos_of_ne_zero hdelay
    rw [heq, running_held hcur hpos] at ht
    cases ht
    exact .inr ⟨hcur, rfl, .inr ⟨by simp [isDue, hpos], rfl⟩⟩

/-- Every turn of every agent lets the running operation go on, or ends it. -/
theorem turn_goesOn (e : Event) (hs : s.inv = true) (hcur : s.cur = some i) :
    ∃ t, turn e s = .next t ∧ (Ended e s t ∨ GoesOn i e s t) := by
  rcases turn_cases_of_running e s (by simp [hcur]) with rfl | ⟨us, rfl⟩ | ⟨c, rfl, hwf, hturn⟩ |
    ⟨hengine, hclock, t, hturn, hcur', hist, -, hm⟩
  · exact engineTurn_goesOn hs hcur
  · obtain ⟨-, -, -, -, hck⟩ := (State.inv_iff s).mp hs
    exact ⟨_, rfl, .inr ⟨hcur, rfl, clockAdvances_lowers us hck⟩⟩
  · exact ⟨_, hturn, .inl ⟨rfl, .inr ⟨c, rfl, hwf⟩⟩⟩
  · exact ⟨t, hturn, .inr ⟨hcur'.trans hcur, hist, .inr ⟨not_isDue hengine hclock, hm i⟩⟩⟩

/-- A delay in progress ends, or CLOCK shortens it, or the event leaves it as it is (log entry 11). -/
theorem turn_delay (e : Event) (hs : s.inv = true) (hdelay : 0 < s.delayLeft) :
    ∃ t, turn e s = .next t ∧ (t.delayLeft = 0 ∨ t.delayLeft < s.delayLeft ∨
      ((∀ us, e = .clock us → us = 0) ∧ t.delayLeft = s.delayLeft)) := by
  obtain ⟨-, -, hp, -⟩ := (State.inv_iff s).mp hs
  have hcur : s.cur ≠ none := fun hnone => by
    obtain ⟨-, -, -, hzero⟩ := (atRest_iff s).mp (atRest_of_placeOk hp hnone).1
    omega
  rcases turn_cases_of_running e s hcur with rfl | ⟨us, rfl⟩ | ⟨c, rfl, hwf, hturn⟩ |
    ⟨-, hclock, t, hturn, -, -, hsame, -⟩
  · obtain ⟨i, hi⟩ := Option.ne_none_iff_exists'.mp hcur
    obtain ⟨r, heq⟩ := exec_eq_running (hasSteps_of_placeOk hp hi) s
    refine ⟨s, ?_, .inr (.inr ⟨nofun, rfl⟩)⟩
    exact (engineTurn_of_cur hi).trans (heq.trans (running_held hi hdelay))
  · refine ⟨_, rfl, ?_⟩
    rw [clockAdvances_delayLeft]
    by_cases hus : us = 0
    · exact .inr (.inr ⟨fun _ h => by cases h; exact hus, by simp [hus]⟩)
    · have hpos : 0 < us.toNat := by bv_omega
      omega
  · exact ⟨_, hturn, .inl rfl⟩
  · exact ⟨t, hturn, .inr (.inr ⟨fun us h => absurd h (hclock us), hsame⟩)⟩

end

/-! ## Schedules -/

section
variable {σ : Schedule} {s t u : State} {n : Nat}

theorem stateAt_succ (hn : stateAt σ s n = some t) (h : turn (σ n) t = .next u) : stateAt σ s (n + 1) = some u := by
  simp only [stateAt, hn, h]

/-- If again and again an event is due, a due event lowers the measure, and no event raises it or changes what is due,
then the goal is reached. -/
theorem reaches_of_measure {α : Type} [Preorder α] [WellFoundedLT α] {P : State → Prop} {goal : Event → State → Prop}
    {due : State → Event → Prop} (μ : State → α)
    (hturn : ∀ e t, P t → ∃ u, turn e t = .next u ∧
      (goal e u ∨ P u ∧ (μ u < μ t ∨ (¬due t e ∧ μ u = μ t ∧ ∀ e', due t e' → due u e'))))
    (hdue : ∀ t n, P t → ∃ m, n ≤ m ∧ due t (σ m)) (hn : stateAt σ s n = some t) (ht : P t) :
    ∃ m u, n ≤ m ∧ stateAt σ s (m + 1) = some u ∧ goal (σ m) u := by
  induction hμ : μ t using WellFoundedLT.induction generalizing n t with
  | ind a ih =>
    obtain ⟨m, hm, hdue⟩ := hdue t n ht
    obtain ⟨k, rfl⟩ := Nat.exists_eq_add_of_le hm
    clear hm
    induction k generalizing n t with
    | zero =>
      obtain ⟨u, hu, hgoal | ⟨hP, hless | ⟨hnot, -⟩⟩⟩ := hturn (σ n) t ht
      · exact ⟨n, u, le_rfl, stateAt_succ hn hu, hgoal⟩
      · obtain ⟨m, v, hm, hv⟩ := ih _ (hμ ▸ hless) (stateAt_succ hn hu) hP rfl
        exact ⟨m, v, by omega, hv⟩
      · exact absurd hdue hnot
    | succ k ihk =>
      obtain ⟨u, hu, hgoal | ⟨hP, hless | ⟨-, hsame, hkeep⟩⟩⟩ := hturn (σ n) t ht
      · exact ⟨n, u, le_rfl, stateAt_succ hn hu, hgoal⟩
      · obtain ⟨m, v, hm, hv⟩ := ih _ (hμ ▸ hless) (stateAt_succ hn hu) hP rfl
        exact ⟨m, v, by omega, hv⟩
      · have hdue' : due u (σ (n + 1 + k)) := by
          rw [Nat.add_right_comm]
          exact hkeep _ hdue
        obtain ⟨m, v, hm, hv⟩ := ihk (stateAt_succ hn hu) hP (hsame.trans hμ) hdue'
        exact ⟨m, v, by omega, hv⟩

theorem stateAt_inv (hs : s.inv = true) : ∀ {n t}, stateAt σ s n = some t → t.inv = true
  | 0, t, h => by
    cases h
    exact hs
  | n + 1, u, h => by
    rw [stateAt] at h
    split at h
    · cases h
    next t ht =>
      split at h
      next v hv =>
        cases h
        exact turn_inv (stateAt_inv hs ht) hv
      · cases h

/-- Every delay ends under A-CLK alone (log entry 11). -/
theorem delaysReturn_of_clock (hs : s.inv = true) (hclk : clockAdvancesForEver σ) : delaysReturn σ s := by
  intro n t hn
  rcases Nat.eq_zero_or_pos t.delayLeft with hzero | hpos
  · exact ⟨n, t, le_rfl, hn, hzero⟩
  obtain ⟨m, u, hm, hu, hend⟩ := reaches_of_measure (P := fun u => u.inv = true ∧ 0 < u.delayLeft)
    (goal := fun _ u => u.delayLeft = 0) (due := fun _ e => ∃ us, e = .clock us ∧ us ≠ 0) State.delayLeft
    (fun e t ⟨ht, hpos⟩ => by
      obtain ⟨u, hu, hcases⟩ := turn_delay e ht hpos
      refine ⟨u, hu, ?_⟩
      rcases Nat.eq_zero_or_pos u.delayLeft with hzero | hpos'
      · exact .inl hzero
      refine .inr ⟨⟨turn_inv ht hu, hpos'⟩, ?_⟩
      rcases hcases with hzero | hless | ⟨hnot, hsame⟩
      · omega
      · exact .inl hless
      · exact .inr ⟨fun ⟨us, he, hus⟩ => hus (hnot us he), hsame, fun _ => id⟩)
    (fun _ n _ => by
      obtain ⟨m, us, hm, he, hus⟩ := hclk n
      exact ⟨m, hm, us, he, hus⟩)
    hn ⟨stateAt_inv hs hn, hpos⟩
  exact ⟨m + 1, u, by omega, hu, hend⟩

/-- A running operation comes to its end when clock and calls go on for ever. -/
theorem ends_of_clock_of_calls {i : Instr} (hs : s.inv = true) (hclk : clockAdvancesForEver σ) (hcalls : callsReturn σ)
    (hcur : s.cur = some i) : ∃ m u, stateAt σ s (m + 1) = some u ∧ Ended (σ m) s u := by
  obtain ⟨m, u, -, hu, hend⟩ := reaches_of_measure (n := 0) (s := s) (goal := fun e u => Ended e s u) (due := isDue i)
    (P := fun u => u.inv = true ∧ u.cur = some i ∧ u.history = s.history) (progressMeasure i)
    (fun e t ⟨ht, hcur, hist⟩ => by
      obtain ⟨u, hu, hend | ⟨hcur', hist', hlow⟩⟩ := turn_goesOn e ht hcur
      · exact ⟨u, hu, .inl (by rwa [Ended, hist] at hend)⟩
      · refine ⟨u, hu, .inr ⟨⟨turn_inv ht hu, hcur', hist'.trans hist⟩, hlow.imp id fun ⟨hnot, hsame⟩ => ?_⟩⟩
        exact ⟨hnot, hsame, fun _ => (isDue_congr hsame).mpr⟩)
    (fun t n _ => by
      unfold isDue
      split
      · obtain ⟨m, us, hm, he, hus⟩ := hclk n
        exact ⟨m, hm, us, he, hus⟩
      · exact hcalls n)
    rfl ⟨hs, hcur, rfl⟩
  exact ⟨m, u, hu, hend⟩

end

/-- Settles O56: CLOCK ends every delay, and an operation ends because clock and calls lower its measure. -/
theorem everyOperationReturns : Obligations.EveryOperationReturns := by
  intro σ s hs hclk
  refine ⟨delaysReturn_of_clock hs hclk, fun hcalls hcur => ?_⟩
  obtain ⟨i, hi⟩ := Option.ne_none_iff_exists'.mp hcur
  obtain ⟨m, u, hu, hnone, hend⟩ := ends_of_clock_of_calls hs hclk hcalls hi
  refine ⟨m + 1, u, hu, hnone, hend.imp id fun ⟨c, he, hwf⟩ => ?_⟩
  exact ⟨m, c, Nat.lt_succ_self m, he, hwf⟩

end Sys2Proof.Machine
end
